-- ==== Sys2Proof/Word.lean ====
section
/-! DEFINITION. The word types: bytes, register containers, register numbers (R12, R18, R26). -/

namespace Sys2Proof

/-- One byte (R17). -/
abbrev Byte := BitVec 8

/-- The 64-bit container of a register, a pc, an address or a CSR. On RV32 the low 32 bits hold the
value and the upper half is zero (assumption log 22). -/
abbrev Word := BitVec 64

/-- A 5-bit register number (R18, R26). -/
abbrev Reg := BitVec 5

/-- A 3-bit compressed register field, naming register `8 + field` (R100). -/
abbrev CReg := BitVec 3

/-- The register a compressed field names: `8 + field` (R100). -/
def CReg.reg (r : CReg) : Reg := 1#2 ++ r

end Sys2Proof
end

