-- ==== Sys2Proof/Config.lean ====
section
/-! DEFINITION. The parameters of the hardware (R7 to R10) as plain data, and the free values of the
environment's oracles as uninterpreted constants. -/

namespace Sys2Proof

/-- `XLEN` (R7): the two members of the family. -/
inductive Xlen where
  | rv32
  | rv64
  deriving DecidableEq, Repr

/-- The width in bits. -/
def Xlen.bits : Xlen → Nat
  | .rv32 => 32
  | .rv64 => 64

/-- `MODES` (R9): the sets of privilege modes an implementation may have. -/
inductive ModeSet where
  | m
  | mu
  | msu
  deriving DecidableEq, Repr

/-- `MISALIGNED_DATA` (R61). -/
inductive MisalignedData where
  | trap
  | bytewise
  deriving DecidableEq, Repr

/-- `PTE_AD_UPDATE` (R70 step 7). -/
inductive AdUpdate where
  | fault
  | hardware
  deriving DecidableEq, Repr

/-- `MTVAL_ILLEGAL` (R395). -/
inductive MtvalIllegal where
  | bits
  | zero
  deriving DecidableEq, Repr

/-- `C_ADD_RD0` (R103). -/
inductive CAddRd0 where
  | illegal
  | nop
  deriving DecidableEq, Repr

/-- One region of `MEM_MAP` (R57). -/
structure Region where
  base : Nat
  size : Nat
  readable : Bool
  writable : Bool
  executable : Bool
  atomic : Bool
  io : Bool
  deriving DecidableEq, Repr

/-- The byte at physical address `a` lies in the region. -/
def Region.contains (r : Region) (a : Nat) : Bool := decide (r.base ≤ a ∧ a < r.base + r.size)

/-- A result a corner case of division can give (R179). -/
inductive CornerValue where
  | allOnes
  | dividend
  | zero
  deriving DecidableEq, Repr

/-- `DIV_CORNERS` (R179): the four results, quotient and remainder of a division by zero and of the
signed overflow. The defaults are the spec's table (assumption log 20). -/
structure DivCorners where
  zeroQuotient : CornerValue := .allOnes
  zeroRemainder : CornerValue := .dividend
  overflowQuotient : CornerValue := .dividend
  overflowRemainder : CornerValue := .zero
  deriving DecidableEq, Repr

/-- The configuration of the hardware: every parameter of R7 to R10 (assumption log 1). It is constant
along a run. The defaults are those of R10; `resetVector` and `memMap` have none there
(assumption log 2). -/
structure Config where
  xlen : Xlen := .rv64
  extM : Bool := true
  extA : Bool := true
  extF : Bool := true
  extD : Bool := true
  extC : Bool := true
  modes : ModeSet := .msu
  resetVector : Word
  memMap : List Region
  misalignedData : MisalignedData := .trap
  /-- `SATP_MODES` (R68): Bare is always there; these are the paged schemes. -/
  sv32 : Bool := false
  sv39 : Bool := false
  sv48 : Bool := false
  asidLen : Nat := 0
  pteAdUpdate : AdUpdate := .fault
  hartId : Word := 0
  mvendorid : Word := 0
  marchid : Word := 0
  mimpid : Word := 0
  mtvalIllegal : MtvalIllegal := .bits
  scSpuriousFail : Bool := true
  cAddRd0 : CAddRd0 := .illegal
  fsReset : BitVec 2 := 0
  divCorners : DivCorners := {}
  deriving DecidableEq, Repr

/-- S is in `MODES` (R9). -/
def Config.hasS (c : Config) : Bool := c.modes == .msu

/-- U is in `MODES` (R9). -/
def Config.hasU (c : Config) : Bool := c.modes != .m

/-- `FLEN` = 64 exactly when `EXT_D` (R8). -/
def Config.flen64 (c : Config) : Bool := c.extD

/-- `IALIGN/8`: the alignment of an instruction address in bytes (R8, R81). -/
def Config.ialignBytes (c : Config) : Nat := if c.extC then 2 else 4

/-- The region a physical byte address lies in, if any (R57: the regions are disjoint). -/
def Config.regionAt (c : Config) (a : Nat) : Option Region := c.memMap.find? (·.contains a)

/-- What R7 to R10 require of a configuration: `EXT_D` needs `EXT_F`, the reset vector is an XLEN-bit
multiple of IALIGN/8, the paged schemes fit XLEN, `ASIDLEN` fits, the regions are pairwise disjoint,
`FS_RESET` is 0 without F, and the identification values are XLEN-bit. -/
def Config.valid (c : Config) : Bool :=
  (!c.extD || c.extF) &&
  decide (c.resetVector.toNat % c.ialignBytes = 0) &&
  decide (c.resetVector.toNat < 2 ^ c.xlen.bits) &&
  (match c.xlen with
   | .rv32 => !c.sv39 && !c.sv48 && decide (c.asidLen ≤ 9)
   | .rv64 => !c.sv32 && decide (c.asidLen ≤ 16)) &&
  decide (c.memMap.Pairwise fun r q => r.base + r.size ≤ q.base ∨ q.base + q.size ≤ r.base) &&
  (c.extF || c.fsReset == 0) &&
  [c.hartId, c.mvendorid, c.marchid, c.mimpid].all fun v => decide (v.toNat < 2 ^ c.xlen.bits)

/-- The configuration of `State.reset`: every default of R10, and, where R10 has none, the reset vector
0x1000 of the spec's examples (R408) and one region of main memory over the whole 64-bit physical
address space. DESIGN CHOICE, unsafe (assumption log 2). -/
def Config.default : Config where
  resetVector := 0x1000
  memMap := [{ base := 0, size := 2 ^ 64, readable := true, writable := true,
               executable := true, atomic := true, io := false }]

/-- Who asks for a translation (R68). -/
inductive Access where
  | fetch
  | load
  | store
  deriving DecidableEq, Repr

/-- FREE VALUE. `Cycle()` (R35, R392 step 2): the increment `d ≥ 0` of `mcycle` in the step numbered by
the argument (assumption log 8). -/
opaque Config.cycleIncrement : Nat → Nat

/-- FREE VALUE. The start of `Time()` (R409: unspecified start; assumption log 9). -/
opaque Config.timeStart : Nat

/-- FREE VALUE. By how much `Time()` advances in the numbered step (R35; assumption log 9). -/
opaque Config.timeIncrement : Nat → Nat

/-- FREE VALUE. The environment's draw for the `sc` of the numbered step: true says fail (R78, R196;
assumption log 11). -/
opaque Config.scDrawFails : Nat → Bool

/-- FREE VALUE. Which of the values that the parcel at the given address held before the stores since the
last `fence.i` its fetch in the numbered step returns, counted from the newest; a number past the last of
them stands for the present value (R79; assumption log 12). -/
opaque Config.fetchDraw : (tick parcel : Nat) → Nat

/-- FREE VALUE. Which of the values that the PTE at the physical address held before the stores no
`sfence.vma` has covered since, the translation of the virtual address for the access reads in the numbered
step, counted as for `fetchDraw` (R71; assumption log 13). -/
opaque Config.pteDraw : (tick : Nat) → Access → (vaddr pte : Nat) → Nat

/-- FREE VALUE. Which of the values that `satp` held before the writes no `sfence.vma` has covered since,
the translation of the virtual address for the access uses in the numbered step, counted as for `fetchDraw`
(R71; assumption log 14). -/
opaque Config.satpDraw : (tick : Nat) → Access → (vaddr : Nat) → Nat

/-- FREE VALUE. Whether an A or D update that the PTE's region forbids raises StoreAccessFault (row 7 of R394)
in the numbered step, or the access fault of the access (R70 step 7): the two rules differ (assumption
log 37). -/
opaque Config.adFaultIsStores : (tick : Nat) → Access → Bool

end Sys2Proof
end

