-- ==== Sys2Proof/Syntax.lean ====
section
/-! DEFINITION. The instructions: one constructor for each row of spec/opcode_table.json, with every
field its encoding carries, in the order the assembler writes them. Immediates are the raw encoded bits
in immediate order, without the low bits that are always zero: a branch offset is `imm[12:1]`, a jump
offset `imm[20:1]`, a compressed one as R99 lists it. `fm`, `rs1`, `rd` of `fence` and `imm`, `rs1`,
`rd` of `fence.i` are the fields the hardware ignores (R85); `aq`, `rl` are the ordering bits (R95).
They are kept so that `encode` gives back the very word (assumption log 24). -/

namespace Sys2Proof

/-- The 160 instructions of 32 bits (R105) and the 41 of 16 bits (R106). -/
inductive Instr where
  /-- `lui` (R117): `imm[31:12] rd 0110111` -/
  | lui (rd : Reg) (imm : BitVec 20)
  /-- `auipc` (R116): `imm[31:12] rd 0010111` -/
  | auipc (rd : Reg) (imm : BitVec 20)
  /-- `jal` (R147): `imm[20|10:1|11|19:12] rd 1101111` -/
  | jal (rd : Reg) (imm : BitVec 20)
  /-- `jalr` (R148): `imm[11:0] rs1 000 rd 1100111` -/
  | jalr (rd : Reg) (rs1 : Reg) (imm : BitVec 12)
  /-- `beq` (R141): `imm[12|10:5] rs2 rs1 000 imm[4:1|11] 1100011` -/
  | beq (rs1 : Reg) (rs2 : Reg) (imm : BitVec 12)
  /-- `bne` (R146): `imm[12|10:5] rs2 rs1 001 imm[4:1|11] 1100011` -/
  | bne (rs1 : Reg) (rs2 : Reg) (imm : BitVec 12)
  /-- `blt` (R144): `imm[12|10:5] rs2 rs1 100 imm[4:1|11] 1100011` -/
  | blt (rs1 : Reg) (rs2 : Reg) (imm : BitVec 12)
  /-- `bge` (R142): `imm[12|10:5] rs2 rs1 101 imm[4:1|11] 1100011` -/
  | bge (rs1 : Reg) (rs2 : Reg) (imm : BitVec 12)
  /-- `bltu` (R145): `imm[12|10:5] rs2 rs1 110 imm[4:1|11] 1100011` -/
  | bltu (rs1 : Reg) (rs2 : Reg) (imm : BitVec 12)
  /-- `bgeu` (R143): `imm[12|10:5] rs2 rs1 111 imm[4:1|11] 1100011` -/
  | bgeu (rs1 : Reg) (rs2 : Reg) (imm : BitVec 12)
  /-- `lb` (R150): `imm[11:0] rs1 000 rd 0000011` -/
  | lb (rd : Reg) (rs1 : Reg) (imm : BitVec 12)
  /-- `lh` (R153): `imm[11:0] rs1 001 rd 0000011` -/
  | lh (rd : Reg) (rs1 : Reg) (imm : BitVec 12)
  /-- `lw` (R155): `imm[11:0] rs1 010 rd 0000011` -/
  | lw (rd : Reg) (rs1 : Reg) (imm : BitVec 12)
  /-- `lbu` (R151): `imm[11:0] rs1 100 rd 0000011` -/
  | lbu (rd : Reg) (rs1 : Reg) (imm : BitVec 12)
  /-- `lhu` (R154): `imm[11:0] rs1 101 rd 0000011` -/
  | lhu (rd : Reg) (rs1 : Reg) (imm : BitVec 12)
  /-- `lwu` (R156): `imm[11:0] rs1 110 rd 0000011` -/
  | lwu (rd : Reg) (rs1 : Reg) (imm : BitVec 12)
  /-- `ld` (R152): `imm[11:0] rs1 011 rd 0000011` -/
  | ld (rd : Reg) (rs1 : Reg) (imm : BitVec 12)
  /-- `sb` (R157): `imm[11:5] rs2 rs1 000 imm[4:0] 0100011` -/
  | sb (rs2 : Reg) (rs1 : Reg) (imm : BitVec 12)
  /-- `sh` (R159): `imm[11:5] rs2 rs1 001 imm[4:0] 0100011` -/
  | sh (rs2 : Reg) (rs1 : Reg) (imm : BitVec 12)
  /-- `sw` (R160): `imm[11:5] rs2 rs1 010 imm[4:0] 0100011` -/
  | sw (rs2 : Reg) (rs1 : Reg) (imm : BitVec 12)
  /-- `sd` (R158): `imm[11:5] rs2 rs1 011 imm[4:0] 0100011` -/
  | sd (rs2 : Reg) (rs1 : Reg) (imm : BitVec 12)
  /-- `addi` (R111): `imm[11:0] rs1 000 rd 0010011` -/
  | addi (rd : Reg) (rs1 : Reg) (imm : BitVec 12)
  /-- `slti` (R125): `imm[11:0] rs1 010 rd 0010011` -/
  | slti (rd : Reg) (rs1 : Reg) (imm : BitVec 12)
  /-- `sltiu` (R126): `imm[11:0] rs1 011 rd 0010011` -/
  | sltiu (rd : Reg) (rs1 : Reg) (imm : BitVec 12)
  /-- `xori` (R139): `imm[11:0] rs1 100 rd 0010011` -/
  | xori (rd : Reg) (rs1 : Reg) (imm : BitVec 12)
  /-- `ori` (R119): `imm[11:0] rs1 110 rd 0010011` -/
  | ori (rd : Reg) (rs1 : Reg) (imm : BitVec 12)
  /-- `andi` (R115): `imm[11:0] rs1 111 rd 0010011` -/
  | andi (rd : Reg) (rs1 : Reg) (imm : BitVec 12)
  /-- `slli` (R121): `000000 shamt[5:0] rs1 001 rd 0010011` -/
  | slli (rd : Reg) (rs1 : Reg) (shamt : BitVec 6)
  /-- `srli` (R133): `000000 shamt[5:0] rs1 101 rd 0010011` -/
  | srli (rd : Reg) (rs1 : Reg) (shamt : BitVec 6)
  /-- `srai` (R129): `010000 shamt[5:0] rs1 101 rd 0010011` -/
  | srai (rd : Reg) (rs1 : Reg) (shamt : BitVec 6)
  /-- `add` (R110): `0000000 rs2 rs1 000 rd 0110011` -/
  | add (rd : Reg) (rs1 : Reg) (rs2 : Reg)
  /-- `sub` (R136): `0100000 rs2 rs1 000 rd 0110011` -/
  | sub (rd : Reg) (rs1 : Reg) (rs2 : Reg)
  /-- `sll` (R120): `0000000 rs2 rs1 001 rd 0110011` -/
  | sll (rd : Reg) (rs1 : Reg) (rs2 : Reg)
  /-- `slt` (R124): `0000000 rs2 rs1 010 rd 0110011` -/
  | slt (rd : Reg) (rs1 : Reg) (rs2 : Reg)
  /-- `sltu` (R127): `0000000 rs2 rs1 011 rd 0110011` -/
  | sltu (rd : Reg) (rs1 : Reg) (rs2 : Reg)
  /-- `xor` (R138): `0000000 rs2 rs1 100 rd 0110011` -/
  | xor (rd : Reg) (rs1 : Reg) (rs2 : Reg)
  /-- `srl` (R132): `0000000 rs2 rs1 101 rd 0110011` -/
  | srl (rd : Reg) (rs1 : Reg) (rs2 : Reg)
  /-- `sra` (R128): `0100000 rs2 rs1 101 rd 0110011` -/
  | sra (rd : Reg) (rs1 : Reg) (rs2 : Reg)
  /-- `or` (R118): `0000000 rs2 rs1 110 rd 0110011` -/
  | or (rd : Reg) (rs1 : Reg) (rs2 : Reg)
  /-- `and` (R114): `0000000 rs2 rs1 111 rd 0110011` -/
  | and (rd : Reg) (rs1 : Reg) (rs2 : Reg)
  /-- `fence` (R172): `fm pred succ rs1 000 rd 0001111` -/
  | fence (fm : BitVec 4) (pred : BitVec 4) (succ : BitVec 4) (rs1 : Reg) (rd : Reg)
  /-- `fence.i` (R173): `imm[11:0] rs1 001 rd 0001111` -/
  | fenceI (imm : BitVec 12) (rs1 : Reg) (rd : Reg)
  /-- `ecall` (R171): `000000000000 00000 000 00000 1110011` -/
  | ecall
  /-- `ebreak` (R170): `000000000001 00000 000 00000 1110011` -/
  | ebreak
  /-- `csrrw` (R168): `csr rs1 001 rd 1110011` -/
  | csrrw (rd : Reg) (csr : BitVec 12) (rs1 : Reg)
  /-- `csrrs` (R166): `csr rs1 010 rd 1110011` -/
  | csrrs (rd : Reg) (csr : BitVec 12) (rs1 : Reg)
  /-- `csrrc` (R164): `csr rs1 011 rd 1110011` -/
  | csrrc (rd : Reg) (csr : BitVec 12) (rs1 : Reg)
  /-- `csrrwi` (R169): `csr zimm[4:0] 101 rd 1110011` -/
  | csrrwi (rd : Reg) (csr : BitVec 12) (zimm : BitVec 5)
  /-- `csrrsi` (R167): `csr zimm[4:0] 110 rd 1110011` -/
  | csrrsi (rd : Reg) (csr : BitVec 12) (zimm : BitVec 5)
  /-- `csrrci` (R165): `csr zimm[4:0] 111 rd 1110011` -/
  | csrrci (rd : Reg) (csr : BitVec 12) (zimm : BitVec 5)
  /-- `addiw` (R112): `imm[11:0] rs1 000 rd 0011011` -/
  | addiw (rd : Reg) (rs1 : Reg) (imm : BitVec 12)
  /-- `slliw` (R122): `0000000 shamt[4:0] rs1 001 rd 0011011` -/
  | slliw (rd : Reg) (rs1 : Reg) (shamt : BitVec 5)
  /-- `srliw` (R134): `0000000 shamt[4:0] rs1 101 rd 0011011` -/
  | srliw (rd : Reg) (rs1 : Reg) (shamt : BitVec 5)
  /-- `sraiw` (R130): `0100000 shamt[4:0] rs1 101 rd 0011011` -/
  | sraiw (rd : Reg) (rs1 : Reg) (shamt : BitVec 5)
  /-- `addw` (R113): `0000000 rs2 rs1 000 rd 0111011` -/
  | addw (rd : Reg) (rs1 : Reg) (rs2 : Reg)
  /-- `subw` (R137): `0100000 rs2 rs1 000 rd 0111011` -/
  | subw (rd : Reg) (rs1 : Reg) (rs2 : Reg)
  /-- `sllw` (R123): `0000000 rs2 rs1 001 rd 0111011` -/
  | sllw (rd : Reg) (rs1 : Reg) (rs2 : Reg)
  /-- `srlw` (R135): `0000000 rs2 rs1 101 rd 0111011` -/
  | srlw (rd : Reg) (rs1 : Reg) (rs2 : Reg)
  /-- `sraw` (R131): `0100000 rs2 rs1 101 rd 0111011` -/
  | sraw (rd : Reg) (rs1 : Reg) (rs2 : Reg)
  /-- `sret` (R176): `0001000 00010 00000 000 00000 1110011` -/
  | sret
  /-- `mret` (R174): `0011000 00010 00000 000 00000 1110011` -/
  | mret
  /-- `wfi` (R177): `0001000 00101 00000 000 00000 1110011` -/
  | wfi
  /-- `sfence.vma` (R175): `0001001 rs2 rs1 000 00000 1110011` -/
  | sfenceVma (rs1 : Reg) (rs2 : Reg)
  /-- `mul` (R185): `0000001 rs2 rs1 000 rd 0110011` -/
  | mul (rd : Reg) (rs1 : Reg) (rs2 : Reg)
  /-- `mulh` (R186): `0000001 rs2 rs1 001 rd 0110011` -/
  | mulh (rd : Reg) (rs1 : Reg) (rs2 : Reg)
  /-- `mulhsu` (R187): `0000001 rs2 rs1 010 rd 0110011` -/
  | mulhsu (rd : Reg) (rs1 : Reg) (rs2 : Reg)
  /-- `mulhu` (R188): `0000001 rs2 rs1 011 rd 0110011` -/
  | mulhu (rd : Reg) (rs1 : Reg) (rs2 : Reg)
  /-- `div` (R181): `0000001 rs2 rs1 100 rd 0110011` -/
  | div (rd : Reg) (rs1 : Reg) (rs2 : Reg)
  /-- `divu` (R182): `0000001 rs2 rs1 101 rd 0110011` -/
  | divu (rd : Reg) (rs1 : Reg) (rs2 : Reg)
  /-- `rem` (R190): `0000001 rs2 rs1 110 rd 0110011` -/
  | rem (rd : Reg) (rs1 : Reg) (rs2 : Reg)
  /-- `remu` (R191): `0000001 rs2 rs1 111 rd 0110011` -/
  | remu (rd : Reg) (rs1 : Reg) (rs2 : Reg)
  /-- `mulw` (R189): `0000001 rs2 rs1 000 rd 0111011` -/
  | mulw (rd : Reg) (rs1 : Reg) (rs2 : Reg)
  /-- `divw` (R184): `0000001 rs2 rs1 100 rd 0111011` -/
  | divw (rd : Reg) (rs1 : Reg) (rs2 : Reg)
  /-- `divuw` (R183): `0000001 rs2 rs1 101 rd 0111011` -/
  | divuw (rd : Reg) (rs1 : Reg) (rs2 : Reg)
  /-- `remw` (R193): `0000001 rs2 rs1 110 rd 0111011` -/
  | remw (rd : Reg) (rs1 : Reg) (rs2 : Reg)
  /-- `remuw` (R192): `0000001 rs2 rs1 111 rd 0111011` -/
  | remuw (rd : Reg) (rs1 : Reg) (rs2 : Reg)
  /-- `lr.w` (R217): `00010 aq rl 00000 rs1 010 rd 0101111` -/
  | lrW (rd : Reg) (rs1 : Reg) (aq : BitVec 1) (rl : BitVec 1)
  /-- `sc.w` (R219): `00011 aq rl rs2 rs1 010 rd 0101111` -/
  | scW (rd : Reg) (rs2 : Reg) (rs1 : Reg) (aq : BitVec 1) (rl : BitVec 1)
  /-- `amoswap.w` (R213): `00001 aq rl rs2 rs1 010 rd 0101111` -/
  | amoswapW (rd : Reg) (rs2 : Reg) (rs1 : Reg) (aq : BitVec 1) (rl : BitVec 1)
  /-- `amoadd.w` (R199): `00000 aq rl rs2 rs1 010 rd 0101111` -/
  | amoaddW (rd : Reg) (rs2 : Reg) (rs1 : Reg) (aq : BitVec 1) (rl : BitVec 1)
  /-- `amoxor.w` (R215): `00100 aq rl rs2 rs1 010 rd 0101111` -/
  | amoxorW (rd : Reg) (rs2 : Reg) (rs1 : Reg) (aq : BitVec 1) (rl : BitVec 1)
  /-- `amoand.w` (R201): `01100 aq rl rs2 rs1 010 rd 0101111` -/
  | amoandW (rd : Reg) (rs2 : Reg) (rs1 : Reg) (aq : BitVec 1) (rl : BitVec 1)
  /-- `amoor.w` (R211): `01000 aq rl rs2 rs1 010 rd 0101111` -/
  | amoorW (rd : Reg) (rs2 : Reg) (rs1 : Reg) (aq : BitVec 1) (rl : BitVec 1)
  /-- `amomin.w` (R207): `10000 aq rl rs2 rs1 010 rd 0101111` -/
  | amominW (rd : Reg) (rs2 : Reg) (rs1 : Reg) (aq : BitVec 1) (rl : BitVec 1)
  /-- `amomax.w` (R203): `10100 aq rl rs2 rs1 010 rd 0101111` -/
  | amomaxW (rd : Reg) (rs2 : Reg) (rs1 : Reg) (aq : BitVec 1) (rl : BitVec 1)
  /-- `amominu.w` (R209): `11000 aq rl rs2 rs1 010 rd 0101111` -/
  | amominuW (rd : Reg) (rs2 : Reg) (rs1 : Reg) (aq : BitVec 1) (rl : BitVec 1)
  /-- `amomaxu.w` (R205): `11100 aq rl rs2 rs1 010 rd 0101111` -/
  | amomaxuW (rd : Reg) (rs2 : Reg) (rs1 : Reg) (aq : BitVec 1) (rl : BitVec 1)
  /-- `lr.d` (R216): `00010 aq rl 00000 rs1 011 rd 0101111` -/
  | lrD (rd : Reg) (rs1 : Reg) (aq : BitVec 1) (rl : BitVec 1)
  /-- `sc.d` (R218): `00011 aq rl rs2 rs1 011 rd 0101111` -/
  | scD (rd : Reg) (rs2 : Reg) (rs1 : Reg) (aq : BitVec 1) (rl : BitVec 1)
  /-- `amoswap.d` (R212): `00001 aq rl rs2 rs1 011 rd 0101111` -/
  | amoswapD (rd : Reg) (rs2 : Reg) (rs1 : Reg) (aq : BitVec 1) (rl : BitVec 1)
  /-- `amoadd.d` (R198): `00000 aq rl rs2 rs1 011 rd 0101111` -/
  | amoaddD (rd : Reg) (rs2 : Reg) (rs1 : Reg) (aq : BitVec 1) (rl : BitVec 1)
  /-- `amoxor.d` (R214): `00100 aq rl rs2 rs1 011 rd 0101111` -/
  | amoxorD (rd : Reg) (rs2 : Reg) (rs1 : Reg) (aq : BitVec 1) (rl : BitVec 1)
  /-- `amoand.d` (R200): `01100 aq rl rs2 rs1 011 rd 0101111` -/
  | amoandD (rd : Reg) (rs2 : Reg) (rs1 : Reg) (aq : BitVec 1) (rl : BitVec 1)
  /-- `amoor.d` (R210): `01000 aq rl rs2 rs1 011 rd 0101111` -/
  | amoorD (rd : Reg) (rs2 : Reg) (rs1 : Reg) (aq : BitVec 1) (rl : BitVec 1)
  /-- `amomin.d` (R206): `10000 aq rl rs2 rs1 011 rd 0101111` -/
  | amominD (rd : Reg) (rs2 : Reg) (rs1 : Reg) (aq : BitVec 1) (rl : BitVec 1)
  /-- `amomax.d` (R202): `10100 aq rl rs2 rs1 011 rd 0101111` -/
  | amomaxD (rd : Reg) (rs2 : Reg) (rs1 : Reg) (aq : BitVec 1) (rl : BitVec 1)
  /-- `amominu.d` (R208): `11000 aq rl rs2 rs1 011 rd 0101111` -/
  | amominuD (rd : Reg) (rs2 : Reg) (rs1 : Reg) (aq : BitVec 1) (rl : BitVec 1)
  /-- `amomaxu.d` (R204): `11100 aq rl rs2 rs1 011 rd 0101111` -/
  | amomaxuD (rd : Reg) (rs2 : Reg) (rs1 : Reg) (aq : BitVec 1) (rl : BitVec 1)
  /-- `flw` (R245): `imm[11:0] rs1 010 rd 0000111` -/
  | flw (rd : Reg) (rs1 : Reg) (imm : BitVec 12)
  /-- `fsw` (R260): `imm[11:5] rs2 rs1 010 imm[4:0] 0100111` -/
  | fsw (rs2 : Reg) (rs1 : Reg) (imm : BitVec 12)
  /-- `fmadd.s` (R246): `rs3 00 rs2 rs1 rm rd 1000011` -/
  | fmaddS (rd : Reg) (rs1 : Reg) (rs2 : Reg) (rs3 : Reg) (rm : BitVec 3)
  /-- `fmsub.s` (R249): `rs3 00 rs2 rs1 rm rd 1000111` -/
  | fmsubS (rd : Reg) (rs1 : Reg) (rs2 : Reg) (rs3 : Reg) (rm : BitVec 3)
  /-- `fnmsub.s` (R254): `rs3 00 rs2 rs1 rm rd 1001011` -/
  | fnmsubS (rd : Reg) (rs1 : Reg) (rs2 : Reg) (rs3 : Reg) (rm : BitVec 3)
  /-- `fnmadd.s` (R253): `rs3 00 rs2 rs1 rm rd 1001111` -/
  | fnmaddS (rd : Reg) (rs1 : Reg) (rs2 : Reg) (rs3 : Reg) (rm : BitVec 3)
  /-- `fadd.s` (R231): `0000000 rs2 rs1 rm rd 1010011` -/
  | faddS (rd : Reg) (rs1 : Reg) (rs2 : Reg) (rm : BitVec 3)
  /-- `fsub.s` (R259): `0000100 rs2 rs1 rm rd 1010011` -/
  | fsubS (rd : Reg) (rs1 : Reg) (rs2 : Reg) (rm : BitVec 3)
  /-- `fmul.s` (R250): `0001000 rs2 rs1 rm rd 1010011` -/
  | fmulS (rd : Reg) (rs1 : Reg) (rs2 : Reg) (rm : BitVec 3)
  /-- `fdiv.s` (R241): `0001100 rs2 rs1 rm rd 1010011` -/
  | fdivS (rd : Reg) (rs1 : Reg) (rs2 : Reg) (rm : BitVec 3)
  /-- `fsqrt.s` (R258): `0101100 00000 rs1 rm rd 1010011` -/
  | fsqrtS (rd : Reg) (rs1 : Reg) (rm : BitVec 3)
  /-- `fsgnj.s` (R255): `0010000 rs2 rs1 000 rd 1010011` -/
  | fsgnjS (rd : Reg) (rs1 : Reg) (rs2 : Reg)
  /-- `fsgnjn.s` (R256): `0010000 rs2 rs1 001 rd 1010011` -/
  | fsgnjnS (rd : Reg) (rs1 : Reg) (rs2 : Reg)
  /-- `fsgnjx.s` (R257): `0010000 rs2 rs1 010 rd 1010011` -/
  | fsgnjxS (rd : Reg) (rs1 : Reg) (rs2 : Reg)
  /-- `fmin.s` (R248): `0010100 rs2 rs1 000 rd 1010011` -/
  | fminS (rd : Reg) (rs1 : Reg) (rs2 : Reg)
  /-- `fmax.s` (R247): `0010100 rs2 rs1 001 rd 1010011` -/
  | fmaxS (rd : Reg) (rs1 : Reg) (rs2 : Reg)
  /-- `fcvt.w.s` (R239): `1100000 00000 rs1 rm rd 1010011` -/
  | fcvtWS (rd : Reg) (rs1 : Reg) (rm : BitVec 3)
  /-- `fcvt.wu.s` (R240): `1100000 00001 rs1 rm rd 1010011` -/
  | fcvtWuS (rd : Reg) (rs1 : Reg) (rm : BitVec 3)
  /-- `fcvt.l.s` (R233): `1100000 00010 rs1 rm rd 1010011` -/
  | fcvtLS (rd : Reg) (rs1 : Reg) (rm : BitVec 3)
  /-- `fcvt.lu.s` (R234): `1100000 00011 rs1 rm rd 1010011` -/
  | fcvtLuS (rd : Reg) (rs1 : Reg) (rm : BitVec 3)
  /-- `feq.s` (R242): `1010000 rs2 rs1 010 rd 1010011` -/
  | feqS (rd : Reg) (rs1 : Reg) (rs2 : Reg)
  /-- `flt.s` (R244): `1010000 rs2 rs1 001 rd 1010011` -/
  | fltS (rd : Reg) (rs1 : Reg) (rs2 : Reg)
  /-- `fle.s` (R243): `1010000 rs2 rs1 000 rd 1010011` -/
  | fleS (rd : Reg) (rs1 : Reg) (rs2 : Reg)
  /-- `fclass.s` (R232): `1110000 00000 rs1 001 rd 1010011` -/
  | fclassS (rd : Reg) (rs1 : Reg)
  /-- `fcvt.s.w` (R237): `1101000 00000 rs1 rm rd 1010011` -/
  | fcvtSW (rd : Reg) (rs1 : Reg) (rm : BitVec 3)
  /-- `fcvt.s.wu` (R238): `1101000 00001 rs1 rm rd 1010011` -/
  | fcvtSWu (rd : Reg) (rs1 : Reg) (rm : BitVec 3)
  /-- `fcvt.s.l` (R235): `1101000 00010 rs1 rm rd 1010011` -/
  | fcvtSL (rd : Reg) (rs1 : Reg) (rm : BitVec 3)
  /-- `fcvt.s.lu` (R236): `1101000 00011 rs1 rm rd 1010011` -/
  | fcvtSLu (rd : Reg) (rs1 : Reg) (rm : BitVec 3)
  /-- `fld` (R277): `imm[11:0] rs1 011 rd 0000111` -/
  | fld (rd : Reg) (rs1 : Reg) (imm : BitVec 12)
  /-- `fsd` (R287): `imm[11:5] rs2 rs1 011 imm[4:0] 0100111` -/
  | fsd (rs2 : Reg) (rs1 : Reg) (imm : BitVec 12)
  /-- `fmadd.d` (R278): `rs3 01 rs2 rs1 rm rd 1000011` -/
  | fmaddD (rd : Reg) (rs1 : Reg) (rs2 : Reg) (rs3 : Reg) (rm : BitVec 3)
  /-- `fmsub.d` (R281): `rs3 01 rs2 rs1 rm rd 1000111` -/
  | fmsubD (rd : Reg) (rs1 : Reg) (rs2 : Reg) (rs3 : Reg) (rm : BitVec 3)
  /-- `fnmsub.d` (R286): `rs3 01 rs2 rs1 rm rd 1001011` -/
  | fnmsubD (rd : Reg) (rs1 : Reg) (rs2 : Reg) (rs3 : Reg) (rm : BitVec 3)
  /-- `fnmadd.d` (R285): `rs3 01 rs2 rs1 rm rd 1001111` -/
  | fnmaddD (rd : Reg) (rs1 : Reg) (rs2 : Reg) (rs3 : Reg) (rm : BitVec 3)
  /-- `fadd.d` (R261): `0000001 rs2 rs1 rm rd 1010011` -/
  | faddD (rd : Reg) (rs1 : Reg) (rs2 : Reg) (rm : BitVec 3)
  /-- `fsub.d` (R292): `0000101 rs2 rs1 rm rd 1010011` -/
  | fsubD (rd : Reg) (rs1 : Reg) (rs2 : Reg) (rm : BitVec 3)
  /-- `fmul.d` (R282): `0001001 rs2 rs1 rm rd 1010011` -/
  | fmulD (rd : Reg) (rs1 : Reg) (rs2 : Reg) (rm : BitVec 3)
  /-- `fdiv.d` (R273): `0001101 rs2 rs1 rm rd 1010011` -/
  | fdivD (rd : Reg) (rs1 : Reg) (rs2 : Reg) (rm : BitVec 3)
  /-- `fsqrt.d` (R291): `0101101 00000 rs1 rm rd 1010011` -/
  | fsqrtD (rd : Reg) (rs1 : Reg) (rm : BitVec 3)
  /-- `fsgnj.d` (R288): `0010001 rs2 rs1 000 rd 1010011` -/
  | fsgnjD (rd : Reg) (rs1 : Reg) (rs2 : Reg)
  /-- `fsgnjn.d` (R289): `0010001 rs2 rs1 001 rd 1010011` -/
  | fsgnjnD (rd : Reg) (rs1 : Reg) (rs2 : Reg)
  /-- `fsgnjx.d` (R290): `0010001 rs2 rs1 010 rd 1010011` -/
  | fsgnjxD (rd : Reg) (rs1 : Reg) (rs2 : Reg)
  /-- `fmin.d` (R280): `0010101 rs2 rs1 000 rd 1010011` -/
  | fminD (rd : Reg) (rs1 : Reg) (rs2 : Reg)
  /-- `fmax.d` (R279): `0010101 rs2 rs1 001 rd 1010011` -/
  | fmaxD (rd : Reg) (rs1 : Reg) (rs2 : Reg)
  /-- `fcvt.w.d` (R271): `1100001 00000 rs1 rm rd 1010011` -/
  | fcvtWD (rd : Reg) (rs1 : Reg) (rm : BitVec 3)
  /-- `fcvt.wu.d` (R272): `1100001 00001 rs1 rm rd 1010011` -/
  | fcvtWuD (rd : Reg) (rs1 : Reg) (rm : BitVec 3)
  /-- `fcvt.l.d` (R268): `1100001 00010 rs1 rm rd 1010011` -/
  | fcvtLD (rd : Reg) (rs1 : Reg) (rm : BitVec 3)
  /-- `fcvt.lu.d` (R269): `1100001 00011 rs1 rm rd 1010011` -/
  | fcvtLuD (rd : Reg) (rs1 : Reg) (rm : BitVec 3)
  /-- `feq.d` (R274): `1010001 rs2 rs1 010 rd 1010011` -/
  | feqD (rd : Reg) (rs1 : Reg) (rs2 : Reg)
  /-- `flt.d` (R276): `1010001 rs2 rs1 001 rd 1010011` -/
  | fltD (rd : Reg) (rs1 : Reg) (rs2 : Reg)
  /-- `fle.d` (R275): `1010001 rs2 rs1 000 rd 1010011` -/
  | fleD (rd : Reg) (rs1 : Reg) (rs2 : Reg)
  /-- `fclass.d` (R262): `1110001 00000 rs1 001 rd 1010011` -/
  | fclassD (rd : Reg) (rs1 : Reg)
  /-- `fcvt.d.w` (R266): `1101001 00000 rs1 rm rd 1010011` -/
  | fcvtDW (rd : Reg) (rs1 : Reg) (rm : BitVec 3)
  /-- `fcvt.d.wu` (R267): `1101001 00001 rs1 rm rd 1010011` -/
  | fcvtDWu (rd : Reg) (rs1 : Reg) (rm : BitVec 3)
  /-- `fcvt.d.l` (R263): `1101001 00010 rs1 rm rd 1010011` -/
  | fcvtDL (rd : Reg) (rs1 : Reg) (rm : BitVec 3)
  /-- `fcvt.d.lu` (R264): `1101001 00011 rs1 rm rd 1010011` -/
  | fcvtDLu (rd : Reg) (rs1 : Reg) (rm : BitVec 3)
  /-- `fmv.x.w` (R252): `1110000 00000 rs1 000 rd 1010011` -/
  | fmvXW (rd : Reg) (rs1 : Reg)
  /-- `fmv.w.x` (R251): `1111000 00000 rs1 000 rd 1010011` -/
  | fmvWX (rd : Reg) (rs1 : Reg)
  /-- `fmv.x.d` (R284): `1110001 00000 rs1 000 rd 1010011` -/
  | fmvXD (rd : Reg) (rs1 : Reg)
  /-- `fmv.d.x` (R283): `1111001 00000 rs1 000 rd 1010011` -/
  | fmvDX (rd : Reg) (rs1 : Reg)
  /-- `fcvt.s.d` (R270): `0100000 00001 rs1 rm rd 1010011` -/
  | fcvtSD (rd : Reg) (rs1 : Reg) (rm : BitVec 3)
  /-- `fcvt.d.s` (R265): `0100001 00000 rs1 rm rd 1010011` -/
  | fcvtDS (rd : Reg) (rs1 : Reg) (rm : BitVec 3)
  /-- `c.addi4spn` (R298): `000 nzuimm[5:4|9:6|2|3] rd' 00` -/
  | cAddi4spn (rd : CReg) (imm : BitVec 8)
  /-- `c.fld` (R306): `001 uimm[5:3] rs1' uimm[7:6] rd' 00` -/
  | cFld (rd : CReg) (rs1 : CReg) (imm : BitVec 5)
  /-- `c.lw` (R322): `010 uimm[5:3] rs1' uimm[2|6] rd' 00` -/
  | cLw (rd : CReg) (rs1 : CReg) (imm : BitVec 5)
  /-- `c.flw` (R308): `011 uimm[5:3] rs1' uimm[2|6] rd' 00` -/
  | cFlw (rd : CReg) (rs1 : CReg) (imm : BitVec 5)
  /-- `c.ld` (R318): `011 uimm[5:3] rs1' uimm[7:6] rd' 00` -/
  | cLd (rd : CReg) (rs1 : CReg) (imm : BitVec 5)
  /-- `c.fsd` (R310): `101 uimm[5:3] rs1' uimm[7:6] rs2' 00` -/
  | cFsd (rs2 : CReg) (rs1 : CReg) (imm : BitVec 5)
  /-- `c.sw` (R333): `110 uimm[5:3] rs1' uimm[2|6] rs2' 00` -/
  | cSw (rs2 : CReg) (rs1 : CReg) (imm : BitVec 5)
  /-- `c.fsw` (R312): `111 uimm[5:3] rs1' uimm[2|6] rs2' 00` -/
  | cFsw (rs2 : CReg) (rs1 : CReg) (imm : BitVec 5)
  /-- `c.sd` (R326): `111 uimm[5:3] rs1' uimm[7:6] rs2' 00` -/
  | cSd (rs2 : CReg) (rs1 : CReg) (imm : BitVec 5)
  /-- `c.addi` (R296): `000 imm[5] rd imm[4:0] 01` -/
  | cAddi (rd : Reg) (imm : BitVec 6)
  /-- `c.jal` (R315): `001 imm[11|4|9:8|10|6|7|3:1|5] 01` -/
  | cJal (imm : BitVec 11)
  /-- `c.addiw` (R299): `001 imm[5] rd imm[4:0] 01` -/
  | cAddiw (rd : Reg) (imm : BitVec 6)
  /-- `c.li` (R320): `010 imm[5] rd imm[4:0] 01` -/
  | cLi (rd : Reg) (imm : BitVec 6)
  /-- `c.addi16sp` (R297): `011 nzimm[9] 00010 nzimm[4|6|8:7|5] 01` -/
  | cAddi16sp (imm : BitVec 6)
  /-- `c.lui` (R321): `011 nzimm[17] rd nzimm[16:12] 01` -/
  | cLui (rd : Reg) (imm : BitVec 6)
  /-- `c.srli` (R330): `100 uimm[5] 00 rd' uimm[4:0] 01` -/
  | cSrli (rd : CReg) (shamt : BitVec 6)
  /-- `c.srai` (R329): `100 uimm[5] 01 rd' uimm[4:0] 01` -/
  | cSrai (rd : CReg) (shamt : BitVec 6)
  /-- `c.andi` (R302): `100 imm[5] 10 rd' imm[4:0] 01` -/
  | cAndi (rd : CReg) (imm : BitVec 6)
  /-- `c.sub` (R331): `100 0 11 rd' 00 rs2' 01` -/
  | cSub (rd : CReg) (rs2 : CReg)
  /-- `c.xor` (R335): `100 0 11 rd' 01 rs2' 01` -/
  | cXor (rd : CReg) (rs2 : CReg)
  /-- `c.or` (R325): `100 0 11 rd' 10 rs2' 01` -/
  | cOr (rd : CReg) (rs2 : CReg)
  /-- `c.and` (R301): `100 0 11 rd' 11 rs2' 01` -/
  | cAnd (rd : CReg) (rs2 : CReg)
  /-- `c.subw` (R332): `100 1 11 rd' 00 rs2' 01` -/
  | cSubw (rd : CReg) (rs2 : CReg)
  /-- `c.addw` (R300): `100 1 11 rd' 01 rs2' 01` -/
  | cAddw (rd : CReg) (rs2 : CReg)
  /-- `c.j` (R314): `101 imm[11|4|9:8|10|6|7|3:1|5] 01` -/
  | cJ (imm : BitVec 11)
  /-- `c.beqz` (R303): `110 imm[8|4:3] rs1' imm[7:6|2:1|5] 01` -/
  | cBeqz (rs1 : CReg) (imm : BitVec 8)
  /-- `c.bnez` (R304): `111 imm[8|4:3] rs1' imm[7:6|2:1|5] 01` -/
  | cBnez (rs1 : CReg) (imm : BitVec 8)
  /-- `c.slli` (R328): `000 uimm[5] rd uimm[4:0] 10` -/
  | cSlli (rd : Reg) (shamt : BitVec 6)
  /-- `c.fldsp` (R307): `001 uimm[5] rd uimm[4:3|8:6] 10` -/
  | cFldsp (rd : Reg) (imm : BitVec 6)
  /-- `c.lwsp` (R323): `010 uimm[5] rd uimm[4:2|7:6] 10` -/
  | cLwsp (rd : Reg) (imm : BitVec 6)
  /-- `c.flwsp` (R309): `011 uimm[5] rd uimm[4:2|7:6] 10` -/
  | cFlwsp (rd : Reg) (imm : BitVec 6)
  /-- `c.ldsp` (R319): `011 uimm[5] rd uimm[4:3|8:6] 10` -/
  | cLdsp (rd : Reg) (imm : BitVec 6)
  /-- `c.jr` (R317): `100 0 rs1 00000 10` -/
  | cJr (rs1 : Reg)
  /-- `c.mv` (R324): `100 0 rd rs2 10` -/
  | cMv (rd : Reg) (rs2 : Reg)
  /-- `c.ebreak` (R305): `100 1 00000 00000 10` -/
  | cEbreak
  /-- `c.jalr` (R316): `100 1 rs1 00000 10` -/
  | cJalr (rs1 : Reg)
  /-- `c.add` (R295): `100 1 rd rs2 10` -/
  | cAdd (rd : Reg) (rs2 : Reg)
  /-- `c.fsdsp` (R311): `101 uimm[5:3|8:6] rs2 10` -/
  | cFsdsp (rs2 : Reg) (imm : BitVec 6)
  /-- `c.swsp` (R334): `110 uimm[5:2|7:6] rs2 10` -/
  | cSwsp (rs2 : Reg) (imm : BitVec 6)
  /-- `c.fswsp` (R313): `111 uimm[5:2|7:6] rs2 10` -/
  | cFswsp (rs2 : Reg) (imm : BitVec 6)
  /-- `c.sdsp` (R327): `111 uimm[5:3|8:6] rs2 10` -/
  | cSdsp (rs2 : Reg) (imm : BitVec 6)
  deriving DecidableEq, Repr

end Sys2Proof
end

