-- ==== Sys2Proof/WellFormed.lean ====
section
/-! DEFINITION. Which instructions exist in a configuration (R7, R8, R9, R83 step 2) and which operand
values encode them (the extra conditions of R105 and R106, R102, R103). -/

namespace Sys2Proof

/-- What an instruction needs of the configuration: an extension (R8), or S in `MODES` (R163). -/
inductive Need where
  | base
  | extM
  | extA
  | extF
  | extD
  | extC
  | extCF
  | extCD
  | modeS
  deriving DecidableEq, Repr

/-- The configuration has what is needed. -/
def Need.met (c : Config) : Need → Bool
  | .base => true
  | .extM => c.extM
  | .extA => c.extA
  | .extF => c.extF
  | .extD => c.extD
  | .extC => c.extC
  | .extCF => c.extC && c.extF
  | .extCD => c.extC && c.extD
  | .modeS => c.hasS

/-- The extension column of R105 and the needs column of R106. -/
def Instr.need : Instr → Need
  | .lui _ _ => .base
  | .auipc _ _ => .base
  | .jal _ _ => .base
  | .jalr _ _ _ => .base
  | .beq _ _ _ => .base
  | .bne _ _ _ => .base
  | .blt _ _ _ => .base
  | .bge _ _ _ => .base
  | .bltu _ _ _ => .base
  | .bgeu _ _ _ => .base
  | .lb _ _ _ => .base
  | .lh _ _ _ => .base
  | .lw _ _ _ => .base
  | .lbu _ _ _ => .base
  | .lhu _ _ _ => .base
  | .lwu _ _ _ => .base
  | .ld _ _ _ => .base
  | .sb _ _ _ => .base
  | .sh _ _ _ => .base
  | .sw _ _ _ => .base
  | .sd _ _ _ => .base
  | .addi _ _ _ => .base
  | .slti _ _ _ => .base
  | .sltiu _ _ _ => .base
  | .xori _ _ _ => .base
  | .ori _ _ _ => .base
  | .andi _ _ _ => .base
  | .slli _ _ _ => .base
  | .srli _ _ _ => .base
  | .srai _ _ _ => .base
  | .add _ _ _ => .base
  | .sub _ _ _ => .base
  | .sll _ _ _ => .base
  | .slt _ _ _ => .base
  | .sltu _ _ _ => .base
  | .xor _ _ _ => .base
  | .srl _ _ _ => .base
  | .sra _ _ _ => .base
  | .or _ _ _ => .base
  | .and _ _ _ => .base
  | .fence _ _ _ _ _ => .base
  | .fenceI _ _ _ => .base
  | .ecall => .base
  | .ebreak => .base
  | .csrrw _ _ _ => .base
  | .csrrs _ _ _ => .base
  | .csrrc _ _ _ => .base
  | .csrrwi _ _ _ => .base
  | .csrrsi _ _ _ => .base
  | .csrrci _ _ _ => .base
  | .addiw _ _ _ => .base
  | .slliw _ _ _ => .base
  | .srliw _ _ _ => .base
  | .sraiw _ _ _ => .base
  | .addw _ _ _ => .base
  | .subw _ _ _ => .base
  | .sllw _ _ _ => .base
  | .srlw _ _ _ => .base
  | .sraw _ _ _ => .base
  | .sret => .modeS
  | .mret => .base
  | .wfi => .base
  | .sfenceVma _ _ => .modeS
  | .mul _ _ _ => .extM
  | .mulh _ _ _ => .extM
  | .mulhsu _ _ _ => .extM
  | .mulhu _ _ _ => .extM
  | .div _ _ _ => .extM
  | .divu _ _ _ => .extM
  | .rem _ _ _ => .extM
  | .remu _ _ _ => .extM
  | .mulw _ _ _ => .extM
  | .divw _ _ _ => .extM
  | .divuw _ _ _ => .extM
  | .remw _ _ _ => .extM
  | .remuw _ _ _ => .extM
  | .lrW _ _ _ _ => .extA
  | .scW _ _ _ _ _ => .extA
  | .amoswapW _ _ _ _ _ => .extA
  | .amoaddW _ _ _ _ _ => .extA
  | .amoxorW _ _ _ _ _ => .extA
  | .amoandW _ _ _ _ _ => .extA
  | .amoorW _ _ _ _ _ => .extA
  | .amominW _ _ _ _ _ => .extA
  | .amomaxW _ _ _ _ _ => .extA
  | .amominuW _ _ _ _ _ => .extA
  | .amomaxuW _ _ _ _ _ => .extA
  | .lrD _ _ _ _ => .extA
  | .scD _ _ _ _ _ => .extA
  | .amoswapD _ _ _ _ _ => .extA
  | .amoaddD _ _ _ _ _ => .extA
  | .amoxorD _ _ _ _ _ => .extA
  | .amoandD _ _ _ _ _ => .extA
  | .amoorD _ _ _ _ _ => .extA
  | .amominD _ _ _ _ _ => .extA
  | .amomaxD _ _ _ _ _ => .extA
  | .amominuD _ _ _ _ _ => .extA
  | .amomaxuD _ _ _ _ _ => .extA
  | .flw _ _ _ => .extF
  | .fsw _ _ _ => .extF
  | .fmaddS _ _ _ _ _ => .extF
  | .fmsubS _ _ _ _ _ => .extF
  | .fnmsubS _ _ _ _ _ => .extF
  | .fnmaddS _ _ _ _ _ => .extF
  | .faddS _ _ _ _ => .extF
  | .fsubS _ _ _ _ => .extF
  | .fmulS _ _ _ _ => .extF
  | .fdivS _ _ _ _ => .extF
  | .fsqrtS _ _ _ => .extF
  | .fsgnjS _ _ _ => .extF
  | .fsgnjnS _ _ _ => .extF
  | .fsgnjxS _ _ _ => .extF
  | .fminS _ _ _ => .extF
  | .fmaxS _ _ _ => .extF
  | .fcvtWS _ _ _ => .extF
  | .fcvtWuS _ _ _ => .extF
  | .fcvtLS _ _ _ => .extF
  | .fcvtLuS _ _ _ => .extF
  | .feqS _ _ _ => .extF
  | .fltS _ _ _ => .extF
  | .fleS _ _ _ => .extF
  | .fclassS _ _ => .extF
  | .fcvtSW _ _ _ => .extF
  | .fcvtSWu _ _ _ => .extF
  | .fcvtSL _ _ _ => .extF
  | .fcvtSLu _ _ _ => .extF
  | .fld _ _ _ => .extD
  | .fsd _ _ _ => .extD
  | .fmaddD _ _ _ _ _ => .extD
  | .fmsubD _ _ _ _ _ => .extD
  | .fnmsubD _ _ _ _ _ => .extD
  | .fnmaddD _ _ _ _ _ => .extD
  | .faddD _ _ _ _ => .extD
  | .fsubD _ _ _ _ => .extD
  | .fmulD _ _ _ _ => .extD
  | .fdivD _ _ _ _ => .extD
  | .fsqrtD _ _ _ => .extD
  | .fsgnjD _ _ _ => .extD
  | .fsgnjnD _ _ _ => .extD
  | .fsgnjxD _ _ _ => .extD
  | .fminD _ _ _ => .extD
  | .fmaxD _ _ _ => .extD
  | .fcvtWD _ _ _ => .extD
  | .fcvtWuD _ _ _ => .extD
  | .fcvtLD _ _ _ => .extD
  | .fcvtLuD _ _ _ => .extD
  | .feqD _ _ _ => .extD
  | .fltD _ _ _ => .extD
  | .fleD _ _ _ => .extD
  | .fclassD _ _ => .extD
  | .fcvtDW _ _ _ => .extD
  | .fcvtDWu _ _ _ => .extD
  | .fcvtDL _ _ _ => .extD
  | .fcvtDLu _ _ _ => .extD
  | .fmvXW _ _ => .extF
  | .fmvWX _ _ => .extF
  | .fmvXD _ _ => .extD
  | .fmvDX _ _ => .extD
  | .fcvtSD _ _ _ => .extD
  | .fcvtDS _ _ _ => .extD
  | .cAddi4spn _ _ => .extC
  | .cFld _ _ _ => .extCD
  | .cLw _ _ _ => .extC
  | .cFlw _ _ _ => .extCF
  | .cLd _ _ _ => .extC
  | .cFsd _ _ _ => .extCD
  | .cSw _ _ _ => .extC
  | .cFsw _ _ _ => .extCF
  | .cSd _ _ _ => .extC
  | .cAddi _ _ => .extC
  | .cJal _ => .extC
  | .cAddiw _ _ => .extC
  | .cLi _ _ => .extC
  | .cAddi16sp _ => .extC
  | .cLui _ _ => .extC
  | .cSrli _ _ => .extC
  | .cSrai _ _ => .extC
  | .cAndi _ _ => .extC
  | .cSub _ _ => .extC
  | .cXor _ _ => .extC
  | .cOr _ _ => .extC
  | .cAnd _ _ => .extC
  | .cSubw _ _ => .extC
  | .cAddw _ _ => .extC
  | .cJ _ => .extC
  | .cBeqz _ _ => .extC
  | .cBnez _ _ => .extC
  | .cSlli _ _ => .extC
  | .cFldsp _ _ => .extCD
  | .cLwsp _ _ => .extC
  | .cFlwsp _ _ => .extCF
  | .cLdsp _ _ => .extC
  | .cJr _ => .extC
  | .cMv _ _ => .extC
  | .cEbreak => .extC
  | .cJalr _ => .extC
  | .cAdd _ _ => .extC
  | .cFsdsp _ _ => .extCD
  | .cSwsp _ _ => .extC
  | .cFswsp _ _ => .extCF
  | .cSdsp _ _ => .extC

/-- The XLEN column of R105 and R106: `none` where the instruction exists at both widths. -/
def Instr.onlyXlen : Instr → Option Xlen
  | .lui _ _ => none
  | .auipc _ _ => none
  | .jal _ _ => none
  | .jalr _ _ _ => none
  | .beq _ _ _ => none
  | .bne _ _ _ => none
  | .blt _ _ _ => none
  | .bge _ _ _ => none
  | .bltu _ _ _ => none
  | .bgeu _ _ _ => none
  | .lb _ _ _ => none
  | .lh _ _ _ => none
  | .lw _ _ _ => none
  | .lbu _ _ _ => none
  | .lhu _ _ _ => none
  | .lwu _ _ _ => some .rv64
  | .ld _ _ _ => some .rv64
  | .sb _ _ _ => none
  | .sh _ _ _ => none
  | .sw _ _ _ => none
  | .sd _ _ _ => some .rv64
  | .addi _ _ _ => none
  | .slti _ _ _ => none
  | .sltiu _ _ _ => none
  | .xori _ _ _ => none
  | .ori _ _ _ => none
  | .andi _ _ _ => none
  | .slli _ _ _ => none
  | .srli _ _ _ => none
  | .srai _ _ _ => none
  | .add _ _ _ => none
  | .sub _ _ _ => none
  | .sll _ _ _ => none
  | .slt _ _ _ => none
  | .sltu _ _ _ => none
  | .xor _ _ _ => none
  | .srl _ _ _ => none
  | .sra _ _ _ => none
  | .or _ _ _ => none
  | .and _ _ _ => none
  | .fence _ _ _ _ _ => none
  | .fenceI _ _ _ => none
  | .ecall => none
  | .ebreak => none
  | .csrrw _ _ _ => none
  | .csrrs _ _ _ => none
  | .csrrc _ _ _ => none
  | .csrrwi _ _ _ => none
  | .csrrsi _ _ _ => none
  | .csrrci _ _ _ => none
  | .addiw _ _ _ => some .rv64
  | .slliw _ _ _ => some .rv64
  | .srliw _ _ _ => some .rv64
  | .sraiw _ _ _ => some .rv64
  | .addw _ _ _ => some .rv64
  | .subw _ _ _ => some .rv64
  | .sllw _ _ _ => some .rv64
  | .srlw _ _ _ => some .rv64
  | .sraw _ _ _ => some .rv64
  | .sret => none
  | .mret => none
  | .wfi => none
  | .sfenceVma _ _ => none
  | .mul _ _ _ => none
  | .mulh _ _ _ => none
  | .mulhsu _ _ _ => none
  | .mulhu _ _ _ => none
  | .div _ _ _ => none
  | .divu _ _ _ => none
  | .rem _ _ _ => none
  | .remu _ _ _ => none
  | .mulw _ _ _ => some .rv64
  | .divw _ _ _ => some .rv64
  | .divuw _ _ _ => some .rv64
  | .remw _ _ _ => some .rv64
  | .remuw _ _ _ => some .rv64
  | .lrW _ _ _ _ => none
  | .scW _ _ _ _ _ => none
  | .amoswapW _ _ _ _ _ => none
  | .amoaddW _ _ _ _ _ => none
  | .amoxorW _ _ _ _ _ => none
  | .amoandW _ _ _ _ _ => none
  | .amoorW _ _ _ _ _ => none
  | .amominW _ _ _ _ _ => none
  | .amomaxW _ _ _ _ _ => none
  | .amominuW _ _ _ _ _ => none
  | .amomaxuW _ _ _ _ _ => none
  | .lrD _ _ _ _ => some .rv64
  | .scD _ _ _ _ _ => some .rv64
  | .amoswapD _ _ _ _ _ => some .rv64
  | .amoaddD _ _ _ _ _ => some .rv64
  | .amoxorD _ _ _ _ _ => some .rv64
  | .amoandD _ _ _ _ _ => some .rv64
  | .amoorD _ _ _ _ _ => some .rv64
  | .amominD _ _ _ _ _ => some .rv64
  | .amomaxD _ _ _ _ _ => some .rv64
  | .amominuD _ _ _ _ _ => some .rv64
  | .amomaxuD _ _ _ _ _ => some .rv64
  | .flw _ _ _ => none
  | .fsw _ _ _ => none
  | .fmaddS _ _ _ _ _ => none
  | .fmsubS _ _ _ _ _ => none
  | .fnmsubS _ _ _ _ _ => none
  | .fnmaddS _ _ _ _ _ => none
  | .faddS _ _ _ _ => none
  | .fsubS _ _ _ _ => none
  | .fmulS _ _ _ _ => none
  | .fdivS _ _ _ _ => none
  | .fsqrtS _ _ _ => none
  | .fsgnjS _ _ _ => none
  | .fsgnjnS _ _ _ => none
  | .fsgnjxS _ _ _ => none
  | .fminS _ _ _ => none
  | .fmaxS _ _ _ => none
  | .fcvtWS _ _ _ => none
  | .fcvtWuS _ _ _ => none
  | .fcvtLS _ _ _ => some .rv64
  | .fcvtLuS _ _ _ => some .rv64
  | .feqS _ _ _ => none
  | .fltS _ _ _ => none
  | .fleS _ _ _ => none
  | .fclassS _ _ => none
  | .fcvtSW _ _ _ => none
  | .fcvtSWu _ _ _ => none
  | .fcvtSL _ _ _ => some .rv64
  | .fcvtSLu _ _ _ => some .rv64
  | .fld _ _ _ => none
  | .fsd _ _ _ => none
  | .fmaddD _ _ _ _ _ => none
  | .fmsubD _ _ _ _ _ => none
  | .fnmsubD _ _ _ _ _ => none
  | .fnmaddD _ _ _ _ _ => none
  | .faddD _ _ _ _ => none
  | .fsubD _ _ _ _ => none
  | .fmulD _ _ _ _ => none
  | .fdivD _ _ _ _ => none
  | .fsqrtD _ _ _ => none
  | .fsgnjD _ _ _ => none
  | .fsgnjnD _ _ _ => none
  | .fsgnjxD _ _ _ => none
  | .fminD _ _ _ => none
  | .fmaxD _ _ _ => none
  | .fcvtWD _ _ _ => none
  | .fcvtWuD _ _ _ => none
  | .fcvtLD _ _ _ => some .rv64
  | .fcvtLuD _ _ _ => some .rv64
  | .feqD _ _ _ => none
  | .fltD _ _ _ => none
  | .fleD _ _ _ => none
  | .fclassD _ _ => none
  | .fcvtDW _ _ _ => none
  | .fcvtDWu _ _ _ => none
  | .fcvtDL _ _ _ => some .rv64
  | .fcvtDLu _ _ _ => some .rv64
  | .fmvXW _ _ => none
  | .fmvWX _ _ => none
  | .fmvXD _ _ => some .rv64
  | .fmvDX _ _ => some .rv64
  | .fcvtSD _ _ _ => none
  | .fcvtDS _ _ _ => none
  | .cAddi4spn _ _ => none
  | .cFld _ _ _ => none
  | .cLw _ _ _ => none
  | .cFlw _ _ _ => some .rv32
  | .cLd _ _ _ => some .rv64
  | .cFsd _ _ _ => none
  | .cSw _ _ _ => none
  | .cFsw _ _ _ => some .rv32
  | .cSd _ _ _ => some .rv64
  | .cAddi _ _ => none
  | .cJal _ => some .rv32
  | .cAddiw _ _ => some .rv64
  | .cLi _ _ => none
  | .cAddi16sp _ => none
  | .cLui _ _ => none
  | .cSrli _ _ => none
  | .cSrai _ _ => none
  | .cAndi _ _ => none
  | .cSub _ _ => none
  | .cXor _ _ => none
  | .cOr _ _ => none
  | .cAnd _ _ => none
  | .cSubw _ _ => some .rv64
  | .cAddw _ _ => some .rv64
  | .cJ _ => none
  | .cBeqz _ _ => none
  | .cBnez _ _ => none
  | .cSlli _ _ => none
  | .cFldsp _ _ => none
  | .cLwsp _ _ => none
  | .cFlwsp _ _ => some .rv32
  | .cLdsp _ _ => some .rv64
  | .cJr _ => none
  | .cMv _ _ => none
  | .cEbreak => none
  | .cJalr _ => none
  | .cAdd _ _ => none
  | .cFsdsp _ _ => none
  | .cSwsp _ _ => none
  | .cFswsp _ _ => some .rv32
  | .cSdsp _ _ => some .rv64

/-- The instruction exists under the parameters (R83 step 2). -/
def Instr.existsIn (c : Config) (i : Instr) : Bool :=
  i.need.met c && (i.onlyXlen.all (· == c.xlen))

/-- A shift amount the width allows: bit 5 is 0 on RV32 (R84, U5). -/
def shamtOk (c : Config) (shamt : BitVec 6) : Bool :=
  match c.xlen with
  | .rv32 => !shamt.getLsbD 5
  | .rv64 => true

/-- The operand values encode the instruction: the extra conditions of R105 and R106. -/
def Instr.operandsOk (c : Config) : Instr → Bool
  | .lui _ _ => true
  | .auipc _ _ => true
  | .jal _ _ => true
  | .jalr _ _ _ => true
  | .beq _ _ _ => true
  | .bne _ _ _ => true
  | .blt _ _ _ => true
  | .bge _ _ _ => true
  | .bltu _ _ _ => true
  | .bgeu _ _ _ => true
  | .lb _ _ _ => true
  | .lh _ _ _ => true
  | .lw _ _ _ => true
  | .lbu _ _ _ => true
  | .lhu _ _ _ => true
  | .lwu _ _ _ => true
  | .ld _ _ _ => true
  | .sb _ _ _ => true
  | .sh _ _ _ => true
  | .sw _ _ _ => true
  | .sd _ _ _ => true
  | .addi _ _ _ => true
  | .slti _ _ _ => true
  | .sltiu _ _ _ => true
  | .xori _ _ _ => true
  | .ori _ _ _ => true
  | .andi _ _ _ => true
  | .slli _ _ shamt => shamtOk c shamt
  | .srli _ _ shamt => shamtOk c shamt
  | .srai _ _ shamt => shamtOk c shamt
  | .add _ _ _ => true
  | .sub _ _ _ => true
  | .sll _ _ _ => true
  | .slt _ _ _ => true
  | .sltu _ _ _ => true
  | .xor _ _ _ => true
  | .srl _ _ _ => true
  | .sra _ _ _ => true
  | .or _ _ _ => true
  | .and _ _ _ => true
  | .fence _ _ _ _ _ => true
  | .fenceI _ _ _ => true
  | .ecall => true
  | .ebreak => true
  | .csrrw _ _ _ => true
  | .csrrs _ _ _ => true
  | .csrrc _ _ _ => true
  | .csrrwi _ _ _ => true
  | .csrrsi _ _ _ => true
  | .csrrci _ _ _ => true
  | .addiw _ _ _ => true
  | .slliw _ _ _ => true
  | .srliw _ _ _ => true
  | .sraiw _ _ _ => true
  | .addw _ _ _ => true
  | .subw _ _ _ => true
  | .sllw _ _ _ => true
  | .srlw _ _ _ => true
  | .sraw _ _ _ => true
  | .sret => true
  | .mret => true
  | .wfi => true
  | .sfenceVma _ _ => true
  | .mul _ _ _ => true
  | .mulh _ _ _ => true
  | .mulhsu _ _ _ => true
  | .mulhu _ _ _ => true
  | .div _ _ _ => true
  | .divu _ _ _ => true
  | .rem _ _ _ => true
  | .remu _ _ _ => true
  | .mulw _ _ _ => true
  | .divw _ _ _ => true
  | .divuw _ _ _ => true
  | .remw _ _ _ => true
  | .remuw _ _ _ => true
  | .lrW _ _ _ _ => true
  | .scW _ _ _ _ _ => true
  | .amoswapW _ _ _ _ _ => true
  | .amoaddW _ _ _ _ _ => true
  | .amoxorW _ _ _ _ _ => true
  | .amoandW _ _ _ _ _ => true
  | .amoorW _ _ _ _ _ => true
  | .amominW _ _ _ _ _ => true
  | .amomaxW _ _ _ _ _ => true
  | .amominuW _ _ _ _ _ => true
  | .amomaxuW _ _ _ _ _ => true
  | .lrD _ _ _ _ => true
  | .scD _ _ _ _ _ => true
  | .amoswapD _ _ _ _ _ => true
  | .amoaddD _ _ _ _ _ => true
  | .amoxorD _ _ _ _ _ => true
  | .amoandD _ _ _ _ _ => true
  | .amoorD _ _ _ _ _ => true
  | .amominD _ _ _ _ _ => true
  | .amomaxD _ _ _ _ _ => true
  | .amominuD _ _ _ _ _ => true
  | .amomaxuD _ _ _ _ _ => true
  | .flw _ _ _ => true
  | .fsw _ _ _ => true
  | .fmaddS _ _ _ _ _ => true
  | .fmsubS _ _ _ _ _ => true
  | .fnmsubS _ _ _ _ _ => true
  | .fnmaddS _ _ _ _ _ => true
  | .faddS _ _ _ _ => true
  | .fsubS _ _ _ _ => true
  | .fmulS _ _ _ _ => true
  | .fdivS _ _ _ _ => true
  | .fsqrtS _ _ _ => true
  | .fsgnjS _ _ _ => true
  | .fsgnjnS _ _ _ => true
  | .fsgnjxS _ _ _ => true
  | .fminS _ _ _ => true
  | .fmaxS _ _ _ => true
  | .fcvtWS _ _ _ => true
  | .fcvtWuS _ _ _ => true
  | .fcvtLS _ _ _ => true
  | .fcvtLuS _ _ _ => true
  | .feqS _ _ _ => true
  | .fltS _ _ _ => true
  | .fleS _ _ _ => true
  | .fclassS _ _ => true
  | .fcvtSW _ _ _ => true
  | .fcvtSWu _ _ _ => true
  | .fcvtSL _ _ _ => true
  | .fcvtSLu _ _ _ => true
  | .fld _ _ _ => true
  | .fsd _ _ _ => true
  | .fmaddD _ _ _ _ _ => true
  | .fmsubD _ _ _ _ _ => true
  | .fnmsubD _ _ _ _ _ => true
  | .fnmaddD _ _ _ _ _ => true
  | .faddD _ _ _ _ => true
  | .fsubD _ _ _ _ => true
  | .fmulD _ _ _ _ => true
  | .fdivD _ _ _ _ => true
  | .fsqrtD _ _ _ => true
  | .fsgnjD _ _ _ => true
  | .fsgnjnD _ _ _ => true
  | .fsgnjxD _ _ _ => true
  | .fminD _ _ _ => true
  | .fmaxD _ _ _ => true
  | .fcvtWD _ _ _ => true
  | .fcvtWuD _ _ _ => true
  | .fcvtLD _ _ _ => true
  | .fcvtLuD _ _ _ => true
  | .feqD _ _ _ => true
  | .fltD _ _ _ => true
  | .fleD _ _ _ => true
  | .fclassD _ _ => true
  | .fcvtDW _ _ _ => true
  | .fcvtDWu _ _ _ => true
  | .fcvtDL _ _ _ => true
  | .fcvtDLu _ _ _ => true
  | .fmvXW _ _ => true
  | .fmvWX _ _ => true
  | .fmvXD _ _ => true
  | .fmvDX _ _ => true
  | .fcvtSD _ _ _ => true
  | .fcvtDS _ _ _ => true
  | .cAddi4spn _ imm => imm != 0
  | .cFld _ _ _ => true
  | .cLw _ _ _ => true
  | .cFlw _ _ _ => true
  | .cLd _ _ _ => true
  | .cFsd _ _ _ => true
  | .cSw _ _ _ => true
  | .cFsw _ _ _ => true
  | .cSd _ _ _ => true
  | .cAddi _ _ => true
  | .cJal _ => true
  | .cAddiw rd _ => rd != 0
  | .cLi _ _ => true
  | .cAddi16sp imm => imm != 0
  | .cLui rd imm => rd != 2 && imm != 0
  | .cSrli _ shamt => shamtOk c shamt
  | .cSrai _ shamt => shamtOk c shamt
  | .cAndi _ _ => true
  | .cSub _ _ => true
  | .cXor _ _ => true
  | .cOr _ _ => true
  | .cAnd _ _ => true
  | .cSubw _ _ => true
  | .cAddw _ _ => true
  | .cJ _ => true
  | .cBeqz _ _ => true
  | .cBnez _ _ => true
  | .cSlli _ shamt => shamtOk c shamt
  | .cFldsp _ _ => true
  | .cLwsp rd _ => rd != 0
  | .cFlwsp _ _ => true
  | .cLdsp rd _ => rd != 0
  | .cJr rs1 => rs1 != 0
  | .cMv _ rs2 => rs2 != 0
  | .cEbreak => true
  | .cJalr rs1 => rs1 != 0
  | .cAdd rd rs2 => rs2 != 0 && (rd != 0 || c.cAddRd0 == .nop)
  | .cFsdsp _ _ => true
  | .cSwsp _ _ => true
  | .cFswsp _ _ => true
  | .cSdsp _ _ => true

/-- The instruction exists in the configuration with these operands. -/
def Instr.wellFormed (c : Config) (i : Instr) : Bool := i.existsIn c && i.operandsOk c

end Sys2Proof
end

