-- ==== Sys2Proof/Decode.lean ====
section
/-! DEFINITION. The decoder of R80 to R106, total on any word and on any bytes, and the encoder, written
from the same tables. Immediates go in and out as raw bits in immediate order (Syntax). -/

namespace Sys2Proof

/-! ## Fields of a 32-bit word (R87 to R95) -/

/-- `rd`, inst[11:7]. -/
def rdF (w : BitVec 32) : Reg := w.extractLsb' 7 5
/-- `rs1`, inst[19:15]. -/
def rs1F (w : BitVec 32) : Reg := w.extractLsb' 15 5
/-- `rs2`, inst[24:20]. -/
def rs2F (w : BitVec 32) : Reg := w.extractLsb' 20 5
/-- `rs3`, inst[31:27] (R93). -/
def rs3F (w : BitVec 32) : Reg := w.extractLsb' 27 5
/-- `funct3` or `rm`, inst[14:12]. -/
def f3F (w : BitVec 32) : BitVec 3 := w.extractLsb' 12 3
/-- `funct7`, inst[31:25]. -/
def f7F (w : BitVec 32) : BitVec 7 := w.extractLsb' 25 7
/-- `funct6` of a shift immediate, inst[31:26] (R88). -/
def f6F (w : BitVec 32) : BitVec 6 := w.extractLsb' 26 6
/-- `funct5` of an atomic, inst[31:27] (R95). -/
def f5F (w : BitVec 32) : BitVec 5 := w.extractLsb' 27 5
/-- `fmt`, inst[26:25] (R93). -/
def fmtF (w : BitVec 32) : BitVec 2 := w.extractLsb' 25 2
/-- `aq`, inst[26] (R95). -/
def aqF (w : BitVec 32) : BitVec 1 := w.extractLsb' 26 1
/-- `rl`, inst[25] (R95). -/
def rlF (w : BitVec 32) : BitVec 1 := w.extractLsb' 25 1
/-- `fm`, inst[31:28] (R85). -/
def fmF (w : BitVec 32) : BitVec 4 := w.extractLsb' 28 4
/-- `pred`, inst[27:24] (R88). -/
def predF (w : BitVec 32) : BitVec 4 := w.extractLsb' 24 4
/-- `succ`, inst[23:20] (R88). -/
def succF (w : BitVec 32) : BitVec 4 := w.extractLsb' 20 4
/-- `shamt[5:0]`, inst[25:20] (R88). -/
def shamtF (w : BitVec 32) : BitVec 6 := w.extractLsb' 20 6
/-- The I immediate, or the `csr` field, inst[31:20] (R88). -/
def immI (w : BitVec 32) : BitVec 12 := w.extractLsb' 20 12
/-- The S immediate, {inst[31:25], inst[11:7]} (R89). -/
def immS (w : BitVec 32) : BitVec 12 := w.extractLsb' 25 7 ++ w.extractLsb' 7 5
/-- The B immediate `imm[12:1]`, {inst[31], inst[7], inst[30:25], inst[11:8]} (R90). -/
def immB (w : BitVec 32) : BitVec 12 :=
  w.extractLsb' 31 1 ++ w.extractLsb' 7 1 ++ w.extractLsb' 25 6 ++ w.extractLsb' 8 4
/-- The U immediate `imm[31:12]`, inst[31:12] (R91). -/
def immU (w : BitVec 32) : BitVec 20 := w.extractLsb' 12 20
/-- The J immediate `imm[20:1]`, {inst[31], inst[19:12], inst[20], inst[30:21]} (R92). -/
def immJ (w : BitVec 32) : BitVec 20 :=
  w.extractLsb' 31 1 ++ w.extractLsb' 12 8 ++ w.extractLsb' 20 1 ++ w.extractLsb' 21 10

/-! ## Fields of a 16-bit word (R98, R99) -/

/-- The 5-bit `rd`/`rs1`, inst[11:7]. -/
def crdF (w : BitVec 16) : Reg := w.extractLsb' 7 5
/-- The 5-bit `rs2`, inst[6:2]. -/
def crs2F (w : BitVec 16) : Reg := w.extractLsb' 2 5
/-- The 3-bit `rs1'` or `rd'`, inst[9:7]. -/
def crs1pF (w : BitVec 16) : CReg := w.extractLsb' 7 3
/-- The 3-bit `rs2'` or `rd'`, inst[4:2]. -/
def crs2pF (w : BitVec 16) : CReg := w.extractLsb' 2 3
/-- `nzuimm[9:2]` of `c.addi4spn`: inst[12:5] = nzuimm[5:4|9:6|2|3]. -/
def immCIW (w : BitVec 16) : BitVec 8 :=
  w.extractLsb' 7 4 ++ w.extractLsb' 11 2 ++ w.extractLsb' 5 1 ++ w.extractLsb' 6 1
/-- `uimm[6:2]` of the word loads and stores: inst[12:10] = uimm[5:3], inst[6:5] = uimm[2|6]. -/
def immCL4 (w : BitVec 16) : BitVec 5 :=
  w.extractLsb' 5 1 ++ w.extractLsb' 10 3 ++ w.extractLsb' 6 1
/-- `uimm[7:3]` of the doubleword loads and stores: inst[12:10] = uimm[5:3], inst[6:5] = uimm[7:6]. -/
def immCL8 (w : BitVec 16) : BitVec 5 := w.extractLsb' 5 2 ++ w.extractLsb' 10 3
/-- `imm[5:0]` of the CI forms: inst[12] = imm[5], inst[6:2] = imm[4:0]. -/
def immCI (w : BitVec 16) : BitVec 6 := w.extractLsb' 12 1 ++ w.extractLsb' 2 5
/-- `nzimm[9:4]` of `c.addi16sp`: inst[12] = nzimm[9], inst[6:2] = nzimm[4|6|8:7|5]. -/
def immCI16 (w : BitVec 16) : BitVec 6 :=
  w.extractLsb' 12 1 ++ w.extractLsb' 3 2 ++ w.extractLsb' 5 1 ++ w.extractLsb' 2 1 ++
    w.extractLsb' 6 1
/-- `imm[11:1]` of `c.j` and `c.jal`: inst[12:2] = imm[11|4|9:8|10|6|7|3:1|5]. -/
def immCJ (w : BitVec 16) : BitVec 11 :=
  w.extractLsb' 12 1 ++ w.extractLsb' 8 1 ++ w.extractLsb' 9 2 ++ w.extractLsb' 6 1 ++
    w.extractLsb' 7 1 ++ w.extractLsb' 2 1 ++ w.extractLsb' 11 1 ++ w.extractLsb' 3 3
/-- `imm[8:1]` of `c.beqz` and `c.bnez`: inst[12:10] = imm[8|4:3], inst[6:2] = imm[7:6|2:1|5]. -/
def immCB (w : BitVec 16) : BitVec 8 :=
  w.extractLsb' 12 1 ++ w.extractLsb' 5 2 ++ w.extractLsb' 2 1 ++ w.extractLsb' 10 2 ++
    w.extractLsb' 3 2
/-- `uimm[7:2]` of `c.lwsp` and `c.flwsp`: inst[12] = uimm[5], inst[6:2] = uimm[4:2|7:6]. -/
def immCI4 (w : BitVec 16) : BitVec 6 :=
  w.extractLsb' 2 2 ++ w.extractLsb' 12 1 ++ w.extractLsb' 4 3
/-- `uimm[8:3]` of `c.ldsp` and `c.fldsp`: inst[12] = uimm[5], inst[6:2] = uimm[4:3|8:6]. -/
def immCI8 (w : BitVec 16) : BitVec 6 :=
  w.extractLsb' 2 3 ++ w.extractLsb' 12 1 ++ w.extractLsb' 5 2
/-- `uimm[7:2]` of `c.swsp` and `c.fswsp`: inst[12:7] = uimm[5:2|7:6]. -/
def immCSS4 (w : BitVec 16) : BitVec 6 := w.extractLsb' 7 2 ++ w.extractLsb' 9 4
/-- `uimm[8:3]` of `c.sdsp` and `c.fsdsp`: inst[12:7] = uimm[5:3|8:6]. -/
def immCSS8 (w : BitVec 16) : BitVec 6 := w.extractLsb' 7 3 ++ w.extractLsb' 10 3

/-! ## The 32-bit instructions -/

/-- LOAD (R105) -/
def decodeLoad (w : BitVec 32) : Option Instr :=
  match f3F w with
  | 0b000#3 => some (.lb (rdF w) (rs1F w) (immI w))
  | 0b001#3 => some (.lh (rdF w) (rs1F w) (immI w))
  | 0b010#3 => some (.lw (rdF w) (rs1F w) (immI w))
  | 0b100#3 => some (.lbu (rdF w) (rs1F w) (immI w))
  | 0b101#3 => some (.lhu (rdF w) (rs1F w) (immI w))
  | 0b110#3 => some (.lwu (rdF w) (rs1F w) (immI w))
  | 0b011#3 => some (.ld (rdF w) (rs1F w) (immI w))
  | _ => none

/-- LOAD-FP (R105) -/
def decodeLoadFp (w : BitVec 32) : Option Instr :=
  match f3F w with
  | 0b010#3 => some (.flw (rdF w) (rs1F w) (immI w))
  | 0b011#3 => some (.fld (rdF w) (rs1F w) (immI w))
  | _ => none

/-- MISC-MEM: the two fences (R105, R85) -/
def decodeMiscMem (w : BitVec 32) : Option Instr :=
  match f3F w with
  | 0b000#3 => some (.fence (fmF w) (predF w) (succF w) (rs1F w) (rdF w))
  | 0b001#3 => some (.fenceI (immI w) (rs1F w) (rdF w))
  | _ => none

/-- STORE (R105) -/
def decodeStore (w : BitVec 32) : Option Instr :=
  match f3F w with
  | 0b000#3 => some (.sb (rs2F w) (rs1F w) (immS w))
  | 0b001#3 => some (.sh (rs2F w) (rs1F w) (immS w))
  | 0b010#3 => some (.sw (rs2F w) (rs1F w) (immS w))
  | 0b011#3 => some (.sd (rs2F w) (rs1F w) (immS w))
  | _ => none

/-- STORE-FP (R105) -/
def decodeStoreFp (w : BitVec 32) : Option Instr :=
  match f3F w with
  | 0b010#3 => some (.fsw (rs2F w) (rs1F w) (immS w))
  | 0b011#3 => some (.fsd (rs2F w) (rs1F w) (immS w))
  | _ => none

/-- BRANCH (R105) -/
def decodeBranch (w : BitVec 32) : Option Instr :=
  match f3F w with
  | 0b000#3 => some (.beq (rs1F w) (rs2F w) (immB w))
  | 0b001#3 => some (.bne (rs1F w) (rs2F w) (immB w))
  | 0b100#3 => some (.blt (rs1F w) (rs2F w) (immB w))
  | 0b101#3 => some (.bge (rs1F w) (rs2F w) (immB w))
  | 0b110#3 => some (.bltu (rs1F w) (rs2F w) (immB w))
  | 0b111#3 => some (.bgeu (rs1F w) (rs2F w) (immB w))
  | _ => none

/-- OP-IMM (R88, R105). Bit 5 of the shift amount is read here and checked by `Instr.operandsOk`. -/
def decodeOpImm (w : BitVec 32) : Option Instr :=
  match f3F w with
  | 0b000#3 => some (.addi (rdF w) (rs1F w) (immI w))
  | 0b001#3 =>
    match f6F w with
    | 0b000000#6 => some (.slli (rdF w) (rs1F w) (shamtF w))
    | _ => none
  | 0b010#3 => some (.slti (rdF w) (rs1F w) (immI w))
  | 0b011#3 => some (.sltiu (rdF w) (rs1F w) (immI w))
  | 0b100#3 => some (.xori (rdF w) (rs1F w) (immI w))
  | 0b101#3 =>
    match f6F w with
    | 0b000000#6 => some (.srli (rdF w) (rs1F w) (shamtF w))
    | 0b010000#6 => some (.srai (rdF w) (rs1F w) (shamtF w))
    | _ => none
  | 0b110#3 => some (.ori (rdF w) (rs1F w) (immI w))
  | 0b111#3 => some (.andi (rdF w) (rs1F w) (immI w))

/-- OP-IMM-32 (R88, R105): a word shift with inst[25] = 1 is unlisted. -/
def decodeOpImm32 (w : BitVec 32) : Option Instr :=
  match f3F w with
  | 0b000#3 => some (.addiw (rdF w) (rs1F w) (immI w))
  | 0b001#3 =>
    match f7F w with
    | 0b0000000#7 => some (.slliw (rdF w) (rs1F w) (rs2F w))
    | _ => none
  | 0b101#3 =>
    match f7F w with
    | 0b0000000#7 => some (.srliw (rdF w) (rs1F w) (rs2F w))
    | 0b0100000#7 => some (.sraiw (rdF w) (rs1F w) (rs2F w))
    | _ => none
  | _ => none

/-- OP (R105) -/
def decodeOp (w : BitVec 32) : Option Instr :=
  match f7F w, f3F w with
  | 0b0000000#7, 0b000#3 => some (.add (rdF w) (rs1F w) (rs2F w))
  | 0b0000000#7, 0b001#3 => some (.sll (rdF w) (rs1F w) (rs2F w))
  | 0b0000000#7, 0b010#3 => some (.slt (rdF w) (rs1F w) (rs2F w))
  | 0b0000000#7, 0b011#3 => some (.sltu (rdF w) (rs1F w) (rs2F w))
  | 0b0000000#7, 0b100#3 => some (.xor (rdF w) (rs1F w) (rs2F w))
  | 0b0000000#7, 0b101#3 => some (.srl (rdF w) (rs1F w) (rs2F w))
  | 0b0000000#7, 0b110#3 => some (.or (rdF w) (rs1F w) (rs2F w))
  | 0b0000000#7, 0b111#3 => some (.and (rdF w) (rs1F w) (rs2F w))
  | 0b0000001#7, 0b000#3 => some (.mul (rdF w) (rs1F w) (rs2F w))
  | 0b0000001#7, 0b001#3 => some (.mulh (rdF w) (rs1F w) (rs2F w))
  | 0b0000001#7, 0b010#3 => some (.mulhsu (rdF w) (rs1F w) (rs2F w))
  | 0b0000001#7, 0b011#3 => some (.mulhu (rdF w) (rs1F w) (rs2F w))
  | 0b0000001#7, 0b100#3 => some (.div (rdF w) (rs1F w) (rs2F w))
  | 0b0000001#7, 0b101#3 => some (.divu (rdF w) (rs1F w) (rs2F w))
  | 0b0000001#7, 0b110#3 => some (.rem (rdF w) (rs1F w) (rs2F w))
  | 0b0000001#7, 0b111#3 => some (.remu (rdF w) (rs1F w) (rs2F w))
  | 0b0100000#7, 0b000#3 => some (.sub (rdF w) (rs1F w) (rs2F w))
  | 0b0100000#7, 0b101#3 => some (.sra (rdF w) (rs1F w) (rs2F w))
  | _, _ => none

/-- OP-32 (R105) -/
def decodeOp32 (w : BitVec 32) : Option Instr :=
  match f7F w, f3F w with
  | 0b0000000#7, 0b000#3 => some (.addw (rdF w) (rs1F w) (rs2F w))
  | 0b0000000#7, 0b001#3 => some (.sllw (rdF w) (rs1F w) (rs2F w))
  | 0b0000000#7, 0b101#3 => some (.srlw (rdF w) (rs1F w) (rs2F w))
  | 0b0000001#7, 0b000#3 => some (.mulw (rdF w) (rs1F w) (rs2F w))
  | 0b0000001#7, 0b100#3 => some (.divw (rdF w) (rs1F w) (rs2F w))
  | 0b0000001#7, 0b101#3 => some (.divuw (rdF w) (rs1F w) (rs2F w))
  | 0b0000001#7, 0b110#3 => some (.remw (rdF w) (rs1F w) (rs2F w))
  | 0b0000001#7, 0b111#3 => some (.remuw (rdF w) (rs1F w) (rs2F w))
  | 0b0100000#7, 0b000#3 => some (.subw (rdF w) (rs1F w) (rs2F w))
  | 0b0100000#7, 0b101#3 => some (.sraw (rdF w) (rs1F w) (rs2F w))
  | _, _ => none

/-- AMO (R95, R105): `lr` needs its `rs2` field 0. -/
def decodeAmo (w : BitVec 32) : Option Instr :=
  match f5F w, f3F w with
  | 0b00000#5, 0b010#3 => some (.amoaddW (rdF w) (rs2F w) (rs1F w) (aqF w) (rlF w))
  | 0b00000#5, 0b011#3 => some (.amoaddD (rdF w) (rs2F w) (rs1F w) (aqF w) (rlF w))
  | 0b00001#5, 0b010#3 => some (.amoswapW (rdF w) (rs2F w) (rs1F w) (aqF w) (rlF w))
  | 0b00001#5, 0b011#3 => some (.amoswapD (rdF w) (rs2F w) (rs1F w) (aqF w) (rlF w))
  | 0b00010#5, 0b010#3 => if rs2F w = 0 then some (.lrW (rdF w) (rs1F w) (aqF w) (rlF w)) else none
  | 0b00010#5, 0b011#3 => if rs2F w = 0 then some (.lrD (rdF w) (rs1F w) (aqF w) (rlF w)) else none
  | 0b00011#5, 0b010#3 => some (.scW (rdF w) (rs2F w) (rs1F w) (aqF w) (rlF w))
  | 0b00011#5, 0b011#3 => some (.scD (rdF w) (rs2F w) (rs1F w) (aqF w) (rlF w))
  | 0b00100#5, 0b010#3 => some (.amoxorW (rdF w) (rs2F w) (rs1F w) (aqF w) (rlF w))
  | 0b00100#5, 0b011#3 => some (.amoxorD (rdF w) (rs2F w) (rs1F w) (aqF w) (rlF w))
  | 0b01000#5, 0b010#3 => some (.amoorW (rdF w) (rs2F w) (rs1F w) (aqF w) (rlF w))
  | 0b01000#5, 0b011#3 => some (.amoorD (rdF w) (rs2F w) (rs1F w) (aqF w) (rlF w))
  | 0b01100#5, 0b010#3 => some (.amoandW (rdF w) (rs2F w) (rs1F w) (aqF w) (rlF w))
  | 0b01100#5, 0b011#3 => some (.amoandD (rdF w) (rs2F w) (rs1F w) (aqF w) (rlF w))
  | 0b10000#5, 0b010#3 => some (.amominW (rdF w) (rs2F w) (rs1F w) (aqF w) (rlF w))
  | 0b10000#5, 0b011#3 => some (.amominD (rdF w) (rs2F w) (rs1F w) (aqF w) (rlF w))
  | 0b10100#5, 0b010#3 => some (.amomaxW (rdF w) (rs2F w) (rs1F w) (aqF w) (rlF w))
  | 0b10100#5, 0b011#3 => some (.amomaxD (rdF w) (rs2F w) (rs1F w) (aqF w) (rlF w))
  | 0b11000#5, 0b010#3 => some (.amominuW (rdF w) (rs2F w) (rs1F w) (aqF w) (rlF w))
  | 0b11000#5, 0b011#3 => some (.amominuD (rdF w) (rs2F w) (rs1F w) (aqF w) (rlF w))
  | 0b11100#5, 0b010#3 => some (.amomaxuW (rdF w) (rs2F w) (rs1F w) (aqF w) (rlF w))
  | 0b11100#5, 0b011#3 => some (.amomaxuD (rdF w) (rs2F w) (rs1F w) (aqF w) (rlF w))
  | _, _ => none

/-- `fmadd` in the precision `fmt` (R93, R105) -/
def decodeFmadd (w : BitVec 32) : Option Instr :=
  match fmtF w with
  | 0b00#2 => some (.fmaddS (rdF w) (rs1F w) (rs2F w) (rs3F w) (f3F w))
  | 0b01#2 => some (.fmaddD (rdF w) (rs1F w) (rs2F w) (rs3F w) (f3F w))
  | _ => none

/-- `fmsub` in the precision `fmt` (R93, R105) -/
def decodeFmsub (w : BitVec 32) : Option Instr :=
  match fmtF w with
  | 0b00#2 => some (.fmsubS (rdF w) (rs1F w) (rs2F w) (rs3F w) (f3F w))
  | 0b01#2 => some (.fmsubD (rdF w) (rs1F w) (rs2F w) (rs3F w) (f3F w))
  | _ => none

/-- `fnmsub` in the precision `fmt` (R93, R105) -/
def decodeFnmsub (w : BitVec 32) : Option Instr :=
  match fmtF w with
  | 0b00#2 => some (.fnmsubS (rdF w) (rs1F w) (rs2F w) (rs3F w) (f3F w))
  | 0b01#2 => some (.fnmsubD (rdF w) (rs1F w) (rs2F w) (rs3F w) (f3F w))
  | _ => none

/-- `fnmadd` in the precision `fmt` (R93, R105) -/
def decodeFnmadd (w : BitVec 32) : Option Instr :=
  match fmtF w with
  | 0b00#2 => some (.fnmaddS (rdF w) (rs1F w) (rs2F w) (rs3F w) (f3F w))
  | 0b01#2 => some (.fnmaddD (rdF w) (rs1F w) (rs2F w) (rs3F w) (f3F w))
  | _ => none

/-- OP-FP (R94, R105). -/
def decodeOpFp (w : BitVec 32) : Option Instr :=
  match f7F w with
  | 0b0000000#7 => some (.faddS (rdF w) (rs1F w) (rs2F w) (f3F w))
  | 0b0000001#7 => some (.faddD (rdF w) (rs1F w) (rs2F w) (f3F w))
  | 0b0000100#7 => some (.fsubS (rdF w) (rs1F w) (rs2F w) (f3F w))
  | 0b0000101#7 => some (.fsubD (rdF w) (rs1F w) (rs2F w) (f3F w))
  | 0b0001000#7 => some (.fmulS (rdF w) (rs1F w) (rs2F w) (f3F w))
  | 0b0001001#7 => some (.fmulD (rdF w) (rs1F w) (rs2F w) (f3F w))
  | 0b0001100#7 => some (.fdivS (rdF w) (rs1F w) (rs2F w) (f3F w))
  | 0b0001101#7 => some (.fdivD (rdF w) (rs1F w) (rs2F w) (f3F w))
  | 0b0010000#7 =>
    match f3F w with
    | 0b000#3 => some (.fsgnjS (rdF w) (rs1F w) (rs2F w))
    | 0b001#3 => some (.fsgnjnS (rdF w) (rs1F w) (rs2F w))
    | 0b010#3 => some (.fsgnjxS (rdF w) (rs1F w) (rs2F w))
    | _ => none
  | 0b0010001#7 =>
    match f3F w with
    | 0b000#3 => some (.fsgnjD (rdF w) (rs1F w) (rs2F w))
    | 0b001#3 => some (.fsgnjnD (rdF w) (rs1F w) (rs2F w))
    | 0b010#3 => some (.fsgnjxD (rdF w) (rs1F w) (rs2F w))
    | _ => none
  | 0b0010100#7 =>
    match f3F w with
    | 0b000#3 => some (.fminS (rdF w) (rs1F w) (rs2F w))
    | 0b001#3 => some (.fmaxS (rdF w) (rs1F w) (rs2F w))
    | _ => none
  | 0b0010101#7 =>
    match f3F w with
    | 0b000#3 => some (.fminD (rdF w) (rs1F w) (rs2F w))
    | 0b001#3 => some (.fmaxD (rdF w) (rs1F w) (rs2F w))
    | _ => none
  | 0b0100000#7 =>
    match rs2F w with
    | 0b00001#5 => some (.fcvtSD (rdF w) (rs1F w) (f3F w))
    | _ => none
  | 0b0100001#7 =>
    match rs2F w with
    | 0b00000#5 => some (.fcvtDS (rdF w) (rs1F w) (f3F w))
    | _ => none
  | 0b0101100#7 =>
    match rs2F w with
    | 0b00000#5 => some (.fsqrtS (rdF w) (rs1F w) (f3F w))
    | _ => none
  | 0b0101101#7 =>
    match rs2F w with
    | 0b00000#5 => some (.fsqrtD (rdF w) (rs1F w) (f3F w))
    | _ => none
  | 0b1010000#7 =>
    match f3F w with
    | 0b000#3 => some (.fleS (rdF w) (rs1F w) (rs2F w))
    | 0b001#3 => some (.fltS (rdF w) (rs1F w) (rs2F w))
    | 0b010#3 => some (.feqS (rdF w) (rs1F w) (rs2F w))
    | _ => none
  | 0b1010001#7 =>
    match f3F w with
    | 0b000#3 => some (.fleD (rdF w) (rs1F w) (rs2F w))
    | 0b001#3 => some (.fltD (rdF w) (rs1F w) (rs2F w))
    | 0b010#3 => some (.feqD (rdF w) (rs1F w) (rs2F w))
    | _ => none
  | 0b1100000#7 =>
    match rs2F w with
    | 0b00000#5 => some (.fcvtWS (rdF w) (rs1F w) (f3F w))
    | 0b00001#5 => some (.fcvtWuS (rdF w) (rs1F w) (f3F w))
    | 0b00010#5 => some (.fcvtLS (rdF w) (rs1F w) (f3F w))
    | 0b00011#5 => some (.fcvtLuS (rdF w) (rs1F w) (f3F w))
    | _ => none
  | 0b1100001#7 =>
    match rs2F w with
    | 0b00000#5 => some (.fcvtWD (rdF w) (rs1F w) (f3F w))
    | 0b00001#5 => some (.fcvtWuD (rdF w) (rs1F w) (f3F w))
    | 0b00010#5 => some (.fcvtLD (rdF w) (rs1F w) (f3F w))
    | 0b00011#5 => some (.fcvtLuD (rdF w) (rs1F w) (f3F w))
    | _ => none
  | 0b1101000#7 =>
    match rs2F w with
    | 0b00000#5 => some (.fcvtSW (rdF w) (rs1F w) (f3F w))
    | 0b00001#5 => some (.fcvtSWu (rdF w) (rs1F w) (f3F w))
    | 0b00010#5 => some (.fcvtSL (rdF w) (rs1F w) (f3F w))
    | 0b00011#5 => some (.fcvtSLu (rdF w) (rs1F w) (f3F w))
    | _ => none
  | 0b1101001#7 =>
    match rs2F w with
    | 0b00000#5 => some (.fcvtDW (rdF w) (rs1F w) (f3F w))
    | 0b00001#5 => some (.fcvtDWu (rdF w) (rs1F w) (f3F w))
    | 0b00010#5 => some (.fcvtDL (rdF w) (rs1F w) (f3F w))
    | 0b00011#5 => some (.fcvtDLu (rdF w) (rs1F w) (f3F w))
    | _ => none
  | 0b1110000#7 =>
    match rs2F w, f3F w with
    | 0b00000#5, 0b000#3 => some (.fmvXW (rdF w) (rs1F w))
    | 0b00000#5, 0b001#3 => some (.fclassS (rdF w) (rs1F w))
    | _, _ => none
  | 0b1110001#7 =>
    match rs2F w, f3F w with
    | 0b00000#5, 0b000#3 => some (.fmvXD (rdF w) (rs1F w))
    | 0b00000#5, 0b001#3 => some (.fclassD (rdF w) (rs1F w))
    | _, _ => none
  | 0b1111000#7 =>
    match rs2F w, f3F w with
    | 0b00000#5, 0b000#3 => some (.fmvWX (rdF w) (rs1F w))
    | _, _ => none
  | 0b1111001#7 =>
    match rs2F w, f3F w with
    | 0b00000#5, 0b000#3 => some (.fmvDX (rdF w) (rs1F w))
    | _, _ => none
  | _ => none

/-- SYSTEM (R96, R162): the five words fixed in all 32 bits, `sfence.vma` with `rd` = 0, and the six CSR
instructions. -/
def decodeSystem (w : BitVec 32) : Option Instr :=
  match f3F w with
  | 0b000#3 =>
    if w = 0x00000073#32 then some .ecall
    else if w = 0x00100073#32 then some .ebreak
    else if w = 0x10200073#32 then some .sret
    else if w = 0x30200073#32 then some .mret
    else if w = 0x10500073#32 then some .wfi
    else if f7F w = 0b0001001#7 ∧ rdF w = 0 then some (.sfenceVma (rs1F w) (rs2F w))
    else none
  | 0b001#3 => some (.csrrw (rdF w) (immI w) (rs1F w))
  | 0b010#3 => some (.csrrs (rdF w) (immI w) (rs1F w))
  | 0b011#3 => some (.csrrc (rdF w) (immI w) (rs1F w))
  | 0b101#3 => some (.csrrwi (rdF w) (immI w) (rs1F w))
  | 0b110#3 => some (.csrrsi (rdF w) (immI w) (rs1F w))
  | 0b111#3 => some (.csrrci (rdF w) (immI w) (rs1F w))
  | _ => none

/-- The 32-bit instruction a word holds by its fixed fields (R83, R97, R105); `none` for an unlisted
word. Extension, XLEN and operand conditions are `decode`'s. -/
def decode32 (w : BitVec 32) : Option Instr :=
  match w.extractLsb' 0 7 with
  | 0b0110111#7 => some (.lui (rdF w) (immU w))
  | 0b0010111#7 => some (.auipc (rdF w) (immU w))
  | 0b1101111#7 => some (.jal (rdF w) (immJ w))
  | 0b1100111#7 => if f3F w = 0b000#3 then some (.jalr (rdF w) (rs1F w) (immI w)) else none
  | 0b1100011#7 => decodeBranch w
  | 0b0000011#7 => decodeLoad w
  | 0b0100011#7 => decodeStore w
  | 0b0010011#7 => decodeOpImm w
  | 0b0011011#7 => decodeOpImm32 w
  | 0b0110011#7 => decodeOp w
  | 0b0111011#7 => decodeOp32 w
  | 0b0001111#7 => decodeMiscMem w
  | 0b1110011#7 => decodeSystem w
  | 0b0000111#7 => decodeLoadFp w
  | 0b0100111#7 => decodeStoreFp w
  | 0b1000011#7 => decodeFmadd w
  | 0b1000111#7 => decodeFmsub w
  | 0b1001011#7 => decodeFnmsub w
  | 0b1001111#7 => decodeFnmadd w
  | 0b1010011#7 => decodeOpFp w
  | 0b0101111#7 => decodeAmo w
  | _ => none

/-! ## The 16-bit instructions -/

/-- Quadrant 00 (R101, R106). -/
def decodeC0 (x : Xlen) (w : BitVec 16) : Option Instr :=
  match w.extractLsb' 13 3 with
  | 0b000#3 => some (.cAddi4spn (crs2pF w) (immCIW w))
  | 0b001#3 => some (.cFld (crs2pF w) (crs1pF w) (immCL8 w))
  | 0b010#3 => some (.cLw (crs2pF w) (crs1pF w) (immCL4 w))
  | 0b011#3 =>
    match x with
    | .rv32 => some (.cFlw (crs2pF w) (crs1pF w) (immCL4 w))
    | .rv64 => some (.cLd (crs2pF w) (crs1pF w) (immCL8 w))
  | 0b101#3 => some (.cFsd (crs2pF w) (crs1pF w) (immCL8 w))
  | 0b110#3 => some (.cSw (crs2pF w) (crs1pF w) (immCL4 w))
  | 0b111#3 =>
    match x with
    | .rv32 => some (.cFsw (crs2pF w) (crs1pF w) (immCL4 w))
    | .rv64 => some (.cSd (crs2pF w) (crs1pF w) (immCL8 w))
  | _ => none

/-- The arithmetic group of quadrant 01, funct3 = 100 (R101). -/
def decodeCArith (w : BitVec 16) : Option Instr :=
  match w.extractLsb' 10 2 with
  | 0b00#2 => some (.cSrli (crs1pF w) (immCI w))
  | 0b01#2 => some (.cSrai (crs1pF w) (immCI w))
  | 0b10#2 => some (.cAndi (crs1pF w) (immCI w))
  | _ =>
    match w.extractLsb' 12 1, w.extractLsb' 5 2 with
    | 0b0#1, 0b00#2 => some (.cSub (crs1pF w) (crs2pF w))
    | 0b0#1, 0b01#2 => some (.cXor (crs1pF w) (crs2pF w))
    | 0b0#1, 0b10#2 => some (.cOr (crs1pF w) (crs2pF w))
    | 0b0#1, 0b11#2 => some (.cAnd (crs1pF w) (crs2pF w))
    | 0b1#1, 0b00#2 => some (.cSubw (crs1pF w) (crs2pF w))
    | 0b1#1, 0b01#2 => some (.cAddw (crs1pF w) (crs2pF w))
    | _, _ => none

/-- Quadrant 01 (R101, R102, R106). -/
def decodeC1 (x : Xlen) (w : BitVec 16) : Option Instr :=
  match w.extractLsb' 13 3 with
  | 0b000#3 => some (.cAddi (crdF w) (immCI w))
  | 0b001#3 =>
    match x with
    | .rv32 => some (.cJal (immCJ w))
    | .rv64 => some (.cAddiw (crdF w) (immCI w))
  | 0b010#3 => some (.cLi (crdF w) (immCI w))
  | 0b011#3 => if crdF w = 2 then some (.cAddi16sp (immCI16 w)) else some (.cLui (crdF w) (immCI w))
  | 0b100#3 => decodeCArith w
  | 0b101#3 => some (.cJ (immCJ w))
  | 0b110#3 => some (.cBeqz (crs1pF w) (immCB w))
  | _ => some (.cBnez (crs1pF w) (immCB w))

/-- The jump, move and add group of quadrant 10, funct3 = 100 (R101, R102). -/
def decodeCJump (w : BitVec 16) : Option Instr :=
  if w.extractLsb' 12 1 = 0b0#1 then
    if crs2F w = 0 then some (.cJr (crdF w)) else some (.cMv (crdF w) (crs2F w))
  else if crs2F w = 0 then
    if crdF w = 0 then some .cEbreak else some (.cJalr (crdF w))
  else some (.cAdd (crdF w) (crs2F w))

/-- Quadrant 10 (R101, R102, R106). -/
def decodeC2 (x : Xlen) (w : BitVec 16) : Option Instr :=
  match w.extractLsb' 13 3 with
  | 0b000#3 => some (.cSlli (crdF w) (immCI w))
  | 0b001#3 => some (.cFldsp (crdF w) (immCI8 w))
  | 0b010#3 => some (.cLwsp (crdF w) (immCI4 w))
  | 0b011#3 =>
    match x with
    | .rv32 => some (.cFlwsp (crdF w) (immCI4 w))
    | .rv64 => some (.cLdsp (crdF w) (immCI8 w))
  | 0b100#3 => decodeCJump w
  | 0b101#3 => some (.cFsdsp (crs2F w) (immCSS8 w))
  | 0b110#3 => some (.cSwsp (crs2F w) (immCSS4 w))
  | _ =>
    match x with
    | .rv32 => some (.cFswsp (crs2F w) (immCSS4 w))
    | .rv64 => some (.cSdsp (crs2F w) (immCSS8 w))

/-- The 16-bit instruction a parcel holds by its fixed fields at the given XLEN (R83, R101); `none` for
an unlisted parcel, and for one that begins a 32-bit instruction. -/
def decode16 (x : Xlen) (w : BitVec 16) : Option Instr :=
  match w.extractLsb' 0 2 with
  | 0b00#2 => decodeC0 x w
  | 0b01#2 => decodeC1 x w
  | 0b10#2 => decodeC2 x w
  | _ => none

/-! ## The whole decoder -/

/-- What a word decodes to: an instruction, or the name of why it is illegal (R84). -/
inductive Decoded where
  /-- The instruction the word encodes. -/
  | instr (i : Instr)
  /-- No row of R105 or R106 has these fixed fields. -/
  | unlisted
  /-- A row has them, but the instruction does not exist under the parameters. -/
  | absent (i : Instr)
  /-- The instruction exists, but its extra condition does not hold for these operands. -/
  | badOperands (i : Instr)
  deriving DecidableEq, Repr

/-- The length bits say that a second parcel follows (R80, R83 step 1). -/
def isLong (p : BitVec 16) : Bool := p.extractLsb' 0 2 == 0b11#2

/-- The parameters and the extra conditions (R83 step 2). -/
def checkDecoded (c : Config) : Option Instr → Decoded
  | none => .unlisted
  | some i =>
    if i.existsIn c then if i.operandsOk c then .instr i else .badOperands i else .absent i

/-- What a word encodes in the configuration; only the low parcel counts where it is a 16-bit
instruction (R83, R84). -/
def decode (c : Config) (w : BitVec 32) : Decoded :=
  let p := w.extractLsb' 0 16
  checkDecoded c (if isLong p then decode32 w else decode16 c.xlen p)

/-- A little-endian parcel from its two bytes (R58). -/
def parcel (b0 b1 : Byte) : BitVec 16 := b1 ++ b0

/-- The instruction at the head of a list of bytes, and the bytes after it (R80, R82); `none` where there
are too few bytes. -/
def decodeBytes (c : Config) : List Byte → Option (Decoded × List Byte)
  | b0 :: b1 :: rest =>
    if isLong (parcel b0 b1) then
      match rest with
      | b2 :: b3 :: rest' => some (decode c (parcel b2 b3 ++ parcel b0 b1), rest')
      | _ => none
    else some (decode c ((parcel b0 b1).setWidth 32), rest)
  | _ => none

/-- The instruction of a decoding. -/
def Decoded.toOption : Decoded → Option Instr
  | .instr i => some i
  | _ => none

/-- The bytes of a number, lowest first: the instruction's parcels as memory holds them (R82). -/
def wordBytes : (count n : Nat) → List Byte
  | 0, _ => []
  | k + 1, n => BitVec.ofNat 8 n :: wordBytes k (n / 256)

/-- The instruction whose bits are `w`, as the opcode table numbers them, in the configuration of
`State.reset` (RV64, assumption log 27): the `nbits` bits laid out as bytes, zeros above them, given to
the decoder. -/
def decodeTableWord (nbits w : Nat) : Option Instr :=
  (decodeBytes Config.default (wordBytes 4 (w % 2 ^ nbits))).bind fun r => r.1.toOption

/-! ## The encoder -/

/-- R-type (R87). -/
def encR (f7 : BitVec 7) (rs2 rs1 : Reg) (f3 : BitVec 3) (rd : Reg) (op : BitVec 7) : BitVec 32 :=
  f7 ++ rs2 ++ rs1 ++ f3 ++ rd ++ op

/-- I-type, and the CSR forms (R88). -/
def encI (imm : BitVec 12) (rs1 : Reg) (f3 : BitVec 3) (rd : Reg) (op : BitVec 7) : BitVec 32 :=
  imm ++ rs1 ++ f3 ++ rd ++ op

/-- S-type (R89). -/
def encS (imm : BitVec 12) (rs2 rs1 : Reg) (f3 : BitVec 3) (op : BitVec 7) : BitVec 32 :=
  imm.extractLsb' 5 7 ++ rs2 ++ rs1 ++ f3 ++ imm.extractLsb' 0 5 ++ op

/-- B-type, from `imm[12:1]` (R90). -/
def encB (imm : BitVec 12) (rs2 rs1 : Reg) (f3 : BitVec 3) (op : BitVec 7) : BitVec 32 :=
  imm.extractLsb' 11 1 ++ imm.extractLsb' 4 6 ++ rs2 ++ rs1 ++ f3 ++ imm.extractLsb' 0 4 ++
    imm.extractLsb' 10 1 ++ op

/-- U-type, from `imm[31:12]` (R91). -/
def encU (imm : BitVec 20) (rd : Reg) (op : BitVec 7) : BitVec 32 := imm ++ rd ++ op

/-- J-type, from `imm[20:1]` (R92). -/
def encJ (imm : BitVec 20) (rd : Reg) (op : BitVec 7) : BitVec 32 :=
  imm.extractLsb' 19 1 ++ imm.extractLsb' 0 10 ++ imm.extractLsb' 10 1 ++ imm.extractLsb' 11 8 ++
    rd ++ op

/-- R4-type (R93). -/
def encR4 (rs3 : Reg) (fmt : BitVec 2) (rs2 rs1 : Reg) (rm : BitVec 3) (rd : Reg) (op : BitVec 7) :
    BitVec 32 :=
  rs3 ++ fmt ++ rs2 ++ rs1 ++ rm ++ rd ++ op

/-- A shift immediate with a 6-bit amount (R88). -/
def encShift (f6 shamt : BitVec 6) (rs1 : Reg) (f3 : BitVec 3) (rd : Reg) (op : BitVec 7) :
    BitVec 32 :=
  f6 ++ shamt ++ rs1 ++ f3 ++ rd ++ op

/-- An atomic (R95). -/
def encAmo (f5 : BitVec 5) (aq rl : BitVec 1) (rs2 rs1 : Reg) (f3 : BitVec 3) (rd : Reg)
    (op : BitVec 7) : BitVec 32 :=
  f5 ++ aq ++ rl ++ rs2 ++ rs1 ++ f3 ++ rd ++ op

/-- `fence` (R88). -/
def encFence (fm pred succ : BitVec 4) (rs1 : Reg) (f3 : BitVec 3) (rd : Reg) (op : BitVec 7) :
    BitVec 32 :=
  fm ++ pred ++ succ ++ rs1 ++ f3 ++ rd ++ op

/-- CIW, from `nzuimm[9:2]` (R99). -/
def encCIW (f3 : BitVec 3) (imm : BitVec 8) (rd : CReg) (op : BitVec 2) : BitVec 16 :=
  f3 ++ imm.extractLsb' 2 2 ++ imm.extractLsb' 4 4 ++ imm.extractLsb' 0 1 ++ imm.extractLsb' 1 1 ++
    rd ++ op

/-- CL and CS of words, from `uimm[6:2]` (R99). -/
def encCL4 (f3 : BitVec 3) (imm : BitVec 5) (rs1 rd : CReg) (op : BitVec 2) : BitVec 16 :=
  f3 ++ imm.extractLsb' 1 3 ++ rs1 ++ imm.extractLsb' 0 1 ++ imm.extractLsb' 4 1 ++ rd ++ op

/-- CL and CS of doublewords, from `uimm[7:3]` (R99). -/
def encCL8 (f3 : BitVec 3) (imm : BitVec 5) (rs1 rd : CReg) (op : BitVec 2) : BitVec 16 :=
  f3 ++ imm.extractLsb' 0 3 ++ rs1 ++ imm.extractLsb' 3 2 ++ rd ++ op

/-- CI (R98). -/
def encCI (f3 : BitVec 3) (imm : BitVec 6) (rd : Reg) (op : BitVec 2) : BitVec 16 :=
  f3 ++ imm.extractLsb' 5 1 ++ rd ++ imm.extractLsb' 0 5 ++ op

/-- `c.addi16sp`, from `nzimm[9:4]`, with `rd` = 2 (R99). -/
def encCI16 (f3 : BitVec 3) (imm : BitVec 6) (op : BitVec 2) : BitVec 16 :=
  f3 ++ imm.extractLsb' 5 1 ++ 2#5 ++ imm.extractLsb' 0 1 ++ imm.extractLsb' 2 1 ++
    imm.extractLsb' 3 2 ++ imm.extractLsb' 1 1 ++ op

/-- CJ, from `imm[11:1]` (R99). -/
def encCJ (f3 : BitVec 3) (imm : BitVec 11) (op : BitVec 2) : BitVec 16 :=
  f3 ++ imm.extractLsb' 10 1 ++ imm.extractLsb' 3 1 ++ imm.extractLsb' 7 2 ++
    imm.extractLsb' 9 1 ++ imm.extractLsb' 5 1 ++ imm.extractLsb' 6 1 ++ imm.extractLsb' 0 3 ++
    imm.extractLsb' 4 1 ++ op

/-- CB, from `imm[8:1]` (R99). -/
def encCB (f3 : BitVec 3) (imm : BitVec 8) (rs1 : CReg) (op : BitVec 2) : BitVec 16 :=
  f3 ++ imm.extractLsb' 7 1 ++ imm.extractLsb' 2 2 ++ rs1 ++ imm.extractLsb' 5 2 ++
    imm.extractLsb' 0 2 ++ imm.extractLsb' 4 1 ++ op

/-- CB, immediate form (R98). -/
def encCBI (f3 : BitVec 3) (imm : BitVec 6) (f2 : BitVec 2) (rd : CReg) (op : BitVec 2) :
    BitVec 16 :=
  f3 ++ imm.extractLsb' 5 1 ++ f2 ++ rd ++ imm.extractLsb' 0 5 ++ op

/-- CS, register form (R98). -/
def encCA (f6 : BitVec 6) (rd : CReg) (f2 : BitVec 2) (rs2 : CReg) (op : BitVec 2) : BitVec 16 :=
  f6 ++ rd ++ f2 ++ rs2 ++ op

/-- CI, stack-relative word loads, from `uimm[7:2]` (R99). -/
def encCI4 (f3 : BitVec 3) (imm : BitVec 6) (rd : Reg) (op : BitVec 2) : BitVec 16 :=
  f3 ++ imm.extractLsb' 3 1 ++ rd ++ imm.extractLsb' 0 3 ++ imm.extractLsb' 4 2 ++ op

/-- CI, stack-relative doubleword loads, from `uimm[8:3]` (R99). -/
def encCI8 (f3 : BitVec 3) (imm : BitVec 6) (rd : Reg) (op : BitVec 2) : BitVec 16 :=
  f3 ++ imm.extractLsb' 2 1 ++ rd ++ imm.extractLsb' 0 2 ++ imm.extractLsb' 3 3 ++ op

/-- CSS of words, from `uimm[7:2]` (R99). -/
def encCSS4 (f3 : BitVec 3) (imm : BitVec 6) (rs2 : Reg) (op : BitVec 2) : BitVec 16 :=
  f3 ++ imm.extractLsb' 0 4 ++ imm.extractLsb' 4 2 ++ rs2 ++ op

/-- CSS of doublewords, from `uimm[8:3]` (R99). -/
def encCSS8 (f3 : BitVec 3) (imm : BitVec 6) (rs2 : Reg) (op : BitVec 2) : BitVec 16 :=
  f3 ++ imm.extractLsb' 0 3 ++ imm.extractLsb' 3 3 ++ rs2 ++ op

/-- CR (R98). -/
def encCR (f4 : BitVec 4) (r1 r2 : Reg) (op : BitVec 2) : BitVec 16 := f4 ++ r1 ++ r2 ++ op

/-- The length of an instruction in bytes (R80). -/
def Instr.size : Instr → Nat
  | .lui _ _ => 4
  | .auipc _ _ => 4
  | .jal _ _ => 4
  | .jalr _ _ _ => 4
  | .beq _ _ _ => 4
  | .bne _ _ _ => 4
  | .blt _ _ _ => 4
  | .bge _ _ _ => 4
  | .bltu _ _ _ => 4
  | .bgeu _ _ _ => 4
  | .lb _ _ _ => 4
  | .lh _ _ _ => 4
  | .lw _ _ _ => 4
  | .lbu _ _ _ => 4
  | .lhu _ _ _ => 4
  | .lwu _ _ _ => 4
  | .ld _ _ _ => 4
  | .sb _ _ _ => 4
  | .sh _ _ _ => 4
  | .sw _ _ _ => 4
  | .sd _ _ _ => 4
  | .addi _ _ _ => 4
  | .slti _ _ _ => 4
  | .sltiu _ _ _ => 4
  | .xori _ _ _ => 4
  | .ori _ _ _ => 4
  | .andi _ _ _ => 4
  | .slli _ _ _ => 4
  | .srli _ _ _ => 4
  | .srai _ _ _ => 4
  | .add _ _ _ => 4
  | .sub _ _ _ => 4
  | .sll _ _ _ => 4
  | .slt _ _ _ => 4
  | .sltu _ _ _ => 4
  | .xor _ _ _ => 4
  | .srl _ _ _ => 4
  | .sra _ _ _ => 4
  | .or _ _ _ => 4
  | .and _ _ _ => 4
  | .fence _ _ _ _ _ => 4
  | .fenceI _ _ _ => 4
  | .ecall => 4
  | .ebreak => 4
  | .csrrw _ _ _ => 4
  | .csrrs _ _ _ => 4
  | .csrrc _ _ _ => 4
  | .csrrwi _ _ _ => 4
  | .csrrsi _ _ _ => 4
  | .csrrci _ _ _ => 4
  | .addiw _ _ _ => 4
  | .slliw _ _ _ => 4
  | .srliw _ _ _ => 4
  | .sraiw _ _ _ => 4
  | .addw _ _ _ => 4
  | .subw _ _ _ => 4
  | .sllw _ _ _ => 4
  | .srlw _ _ _ => 4
  | .sraw _ _ _ => 4
  | .sret => 4
  | .mret => 4
  | .wfi => 4
  | .sfenceVma _ _ => 4
  | .mul _ _ _ => 4
  | .mulh _ _ _ => 4
  | .mulhsu _ _ _ => 4
  | .mulhu _ _ _ => 4
  | .div _ _ _ => 4
  | .divu _ _ _ => 4
  | .rem _ _ _ => 4
  | .remu _ _ _ => 4
  | .mulw _ _ _ => 4
  | .divw _ _ _ => 4
  | .divuw _ _ _ => 4
  | .remw _ _ _ => 4
  | .remuw _ _ _ => 4
  | .lrW _ _ _ _ => 4
  | .scW _ _ _ _ _ => 4
  | .amoswapW _ _ _ _ _ => 4
  | .amoaddW _ _ _ _ _ => 4
  | .amoxorW _ _ _ _ _ => 4
  | .amoandW _ _ _ _ _ => 4
  | .amoorW _ _ _ _ _ => 4
  | .amominW _ _ _ _ _ => 4
  | .amomaxW _ _ _ _ _ => 4
  | .amominuW _ _ _ _ _ => 4
  | .amomaxuW _ _ _ _ _ => 4
  | .lrD _ _ _ _ => 4
  | .scD _ _ _ _ _ => 4
  | .amoswapD _ _ _ _ _ => 4
  | .amoaddD _ _ _ _ _ => 4
  | .amoxorD _ _ _ _ _ => 4
  | .amoandD _ _ _ _ _ => 4
  | .amoorD _ _ _ _ _ => 4
  | .amominD _ _ _ _ _ => 4
  | .amomaxD _ _ _ _ _ => 4
  | .amominuD _ _ _ _ _ => 4
  | .amomaxuD _ _ _ _ _ => 4
  | .flw _ _ _ => 4
  | .fsw _ _ _ => 4
  | .fmaddS _ _ _ _ _ => 4
  | .fmsubS _ _ _ _ _ => 4
  | .fnmsubS _ _ _ _ _ => 4
  | .fnmaddS _ _ _ _ _ => 4
  | .faddS _ _ _ _ => 4
  | .fsubS _ _ _ _ => 4
  | .fmulS _ _ _ _ => 4
  | .fdivS _ _ _ _ => 4
  | .fsqrtS _ _ _ => 4
  | .fsgnjS _ _ _ => 4
  | .fsgnjnS _ _ _ => 4
  | .fsgnjxS _ _ _ => 4
  | .fminS _ _ _ => 4
  | .fmaxS _ _ _ => 4
  | .fcvtWS _ _ _ => 4
  | .fcvtWuS _ _ _ => 4
  | .fcvtLS _ _ _ => 4
  | .fcvtLuS _ _ _ => 4
  | .feqS _ _ _ => 4
  | .fltS _ _ _ => 4
  | .fleS _ _ _ => 4
  | .fclassS _ _ => 4
  | .fcvtSW _ _ _ => 4
  | .fcvtSWu _ _ _ => 4
  | .fcvtSL _ _ _ => 4
  | .fcvtSLu _ _ _ => 4
  | .fld _ _ _ => 4
  | .fsd _ _ _ => 4
  | .fmaddD _ _ _ _ _ => 4
  | .fmsubD _ _ _ _ _ => 4
  | .fnmsubD _ _ _ _ _ => 4
  | .fnmaddD _ _ _ _ _ => 4
  | .faddD _ _ _ _ => 4
  | .fsubD _ _ _ _ => 4
  | .fmulD _ _ _ _ => 4
  | .fdivD _ _ _ _ => 4
  | .fsqrtD _ _ _ => 4
  | .fsgnjD _ _ _ => 4
  | .fsgnjnD _ _ _ => 4
  | .fsgnjxD _ _ _ => 4
  | .fminD _ _ _ => 4
  | .fmaxD _ _ _ => 4
  | .fcvtWD _ _ _ => 4
  | .fcvtWuD _ _ _ => 4
  | .fcvtLD _ _ _ => 4
  | .fcvtLuD _ _ _ => 4
  | .feqD _ _ _ => 4
  | .fltD _ _ _ => 4
  | .fleD _ _ _ => 4
  | .fclassD _ _ => 4
  | .fcvtDW _ _ _ => 4
  | .fcvtDWu _ _ _ => 4
  | .fcvtDL _ _ _ => 4
  | .fcvtDLu _ _ _ => 4
  | .fmvXW _ _ => 4
  | .fmvWX _ _ => 4
  | .fmvXD _ _ => 4
  | .fmvDX _ _ => 4
  | .fcvtSD _ _ _ => 4
  | .fcvtDS _ _ _ => 4
  | .cAddi4spn _ _ => 2
  | .cFld _ _ _ => 2
  | .cLw _ _ _ => 2
  | .cFlw _ _ _ => 2
  | .cLd _ _ _ => 2
  | .cFsd _ _ _ => 2
  | .cSw _ _ _ => 2
  | .cFsw _ _ _ => 2
  | .cSd _ _ _ => 2
  | .cAddi _ _ => 2
  | .cJal _ => 2
  | .cAddiw _ _ => 2
  | .cLi _ _ => 2
  | .cAddi16sp _ => 2
  | .cLui _ _ => 2
  | .cSrli _ _ => 2
  | .cSrai _ _ => 2
  | .cAndi _ _ => 2
  | .cSub _ _ => 2
  | .cXor _ _ => 2
  | .cOr _ _ => 2
  | .cAnd _ _ => 2
  | .cSubw _ _ => 2
  | .cAddw _ _ => 2
  | .cJ _ => 2
  | .cBeqz _ _ => 2
  | .cBnez _ _ => 2
  | .cSlli _ _ => 2
  | .cFldsp _ _ => 2
  | .cLwsp _ _ => 2
  | .cFlwsp _ _ => 2
  | .cLdsp _ _ => 2
  | .cJr _ => 2
  | .cMv _ _ => 2
  | .cEbreak => 2
  | .cJalr _ => 2
  | .cAdd _ _ => 2
  | .cFsdsp _ _ => 2
  | .cSwsp _ _ => 2
  | .cFswsp _ _ => 2
  | .cSdsp _ _ => 2

/-- The word of an instruction (R105, R106); a 16-bit one in the low half, zeros above. -/
def encode : Instr → BitVec 32
  | .lui rd imm => encU imm rd 0b0110111#7
  | .auipc rd imm => encU imm rd 0b0010111#7
  | .jal rd imm => encJ imm rd 0b1101111#7
  | .jalr rd rs1 imm => encI imm rs1 0b000#3 rd 0b1100111#7
  | .beq rs1 rs2 imm => encB imm rs2 rs1 0b000#3 0b1100011#7
  | .bne rs1 rs2 imm => encB imm rs2 rs1 0b001#3 0b1100011#7
  | .blt rs1 rs2 imm => encB imm rs2 rs1 0b100#3 0b1100011#7
  | .bge rs1 rs2 imm => encB imm rs2 rs1 0b101#3 0b1100011#7
  | .bltu rs1 rs2 imm => encB imm rs2 rs1 0b110#3 0b1100011#7
  | .bgeu rs1 rs2 imm => encB imm rs2 rs1 0b111#3 0b1100011#7
  | .lb rd rs1 imm => encI imm rs1 0b000#3 rd 0b0000011#7
  | .lh rd rs1 imm => encI imm rs1 0b001#3 rd 0b0000011#7
  | .lw rd rs1 imm => encI imm rs1 0b010#3 rd 0b0000011#7
  | .lbu rd rs1 imm => encI imm rs1 0b100#3 rd 0b0000011#7
  | .lhu rd rs1 imm => encI imm rs1 0b101#3 rd 0b0000011#7
  | .lwu rd rs1 imm => encI imm rs1 0b110#3 rd 0b0000011#7
  | .ld rd rs1 imm => encI imm rs1 0b011#3 rd 0b0000011#7
  | .sb rs2 rs1 imm => encS imm rs2 rs1 0b000#3 0b0100011#7
  | .sh rs2 rs1 imm => encS imm rs2 rs1 0b001#3 0b0100011#7
  | .sw rs2 rs1 imm => encS imm rs2 rs1 0b010#3 0b0100011#7
  | .sd rs2 rs1 imm => encS imm rs2 rs1 0b011#3 0b0100011#7
  | .addi rd rs1 imm => encI imm rs1 0b000#3 rd 0b0010011#7
  | .slti rd rs1 imm => encI imm rs1 0b010#3 rd 0b0010011#7
  | .sltiu rd rs1 imm => encI imm rs1 0b011#3 rd 0b0010011#7
  | .xori rd rs1 imm => encI imm rs1 0b100#3 rd 0b0010011#7
  | .ori rd rs1 imm => encI imm rs1 0b110#3 rd 0b0010011#7
  | .andi rd rs1 imm => encI imm rs1 0b111#3 rd 0b0010011#7
  | .slli rd rs1 shamt => encShift 0b000000#6 shamt rs1 0b001#3 rd 0b0010011#7
  | .srli rd rs1 shamt => encShift 0b000000#6 shamt rs1 0b101#3 rd 0b0010011#7
  | .srai rd rs1 shamt => encShift 0b010000#6 shamt rs1 0b101#3 rd 0b0010011#7
  | .add rd rs1 rs2 => encR 0b0000000#7 rs2 rs1 0b000#3 rd 0b0110011#7
  | .sub rd rs1 rs2 => encR 0b0100000#7 rs2 rs1 0b000#3 rd 0b0110011#7
  | .sll rd rs1 rs2 => encR 0b0000000#7 rs2 rs1 0b001#3 rd 0b0110011#7
  | .slt rd rs1 rs2 => encR 0b0000000#7 rs2 rs1 0b010#3 rd 0b0110011#7
  | .sltu rd rs1 rs2 => encR 0b0000000#7 rs2 rs1 0b011#3 rd 0b0110011#7
  | .xor rd rs1 rs2 => encR 0b0000000#7 rs2 rs1 0b100#3 rd 0b0110011#7
  | .srl rd rs1 rs2 => encR 0b0000000#7 rs2 rs1 0b101#3 rd 0b0110011#7
  | .sra rd rs1 rs2 => encR 0b0100000#7 rs2 rs1 0b101#3 rd 0b0110011#7
  | .or rd rs1 rs2 => encR 0b0000000#7 rs2 rs1 0b110#3 rd 0b0110011#7
  | .and rd rs1 rs2 => encR 0b0000000#7 rs2 rs1 0b111#3 rd 0b0110011#7
  | .fence fm pred succ rs1 rd => encFence fm pred succ rs1 0b000#3 rd 0b0001111#7
  | .fenceI imm rs1 rd => encI imm rs1 0b001#3 rd 0b0001111#7
  | .ecall => 0x00000073#32
  | .ebreak => 0x00100073#32
  | .csrrw rd csr rs1 => encI csr rs1 0b001#3 rd 0b1110011#7
  | .csrrs rd csr rs1 => encI csr rs1 0b010#3 rd 0b1110011#7
  | .csrrc rd csr rs1 => encI csr rs1 0b011#3 rd 0b1110011#7
  | .csrrwi rd csr zimm => encI csr zimm 0b101#3 rd 0b1110011#7
  | .csrrsi rd csr zimm => encI csr zimm 0b110#3 rd 0b1110011#7
  | .csrrci rd csr zimm => encI csr zimm 0b111#3 rd 0b1110011#7
  | .addiw rd rs1 imm => encI imm rs1 0b000#3 rd 0b0011011#7
  | .slliw rd rs1 shamt => encR 0b0000000#7 shamt rs1 0b001#3 rd 0b0011011#7
  | .srliw rd rs1 shamt => encR 0b0000000#7 shamt rs1 0b101#3 rd 0b0011011#7
  | .sraiw rd rs1 shamt => encR 0b0100000#7 shamt rs1 0b101#3 rd 0b0011011#7
  | .addw rd rs1 rs2 => encR 0b0000000#7 rs2 rs1 0b000#3 rd 0b0111011#7
  | .subw rd rs1 rs2 => encR 0b0100000#7 rs2 rs1 0b000#3 rd 0b0111011#7
  | .sllw rd rs1 rs2 => encR 0b0000000#7 rs2 rs1 0b001#3 rd 0b0111011#7
  | .srlw rd rs1 rs2 => encR 0b0000000#7 rs2 rs1 0b101#3 rd 0b0111011#7
  | .sraw rd rs1 rs2 => encR 0b0100000#7 rs2 rs1 0b101#3 rd 0b0111011#7
  | .sret => 0x10200073#32
  | .mret => 0x30200073#32
  | .wfi => 0x10500073#32
  | .sfenceVma rs1 rs2 => encR 0b0001001#7 rs2 rs1 0b000#3 0#5 0b1110011#7
  | .mul rd rs1 rs2 => encR 0b0000001#7 rs2 rs1 0b000#3 rd 0b0110011#7
  | .mulh rd rs1 rs2 => encR 0b0000001#7 rs2 rs1 0b001#3 rd 0b0110011#7
  | .mulhsu rd rs1 rs2 => encR 0b0000001#7 rs2 rs1 0b010#3 rd 0b0110011#7
  | .mulhu rd rs1 rs2 => encR 0b0000001#7 rs2 rs1 0b011#3 rd 0b0110011#7
  | .div rd rs1 rs2 => encR 0b0000001#7 rs2 rs1 0b100#3 rd 0b0110011#7
  | .divu rd rs1 rs2 => encR 0b0000001#7 rs2 rs1 0b101#3 rd 0b0110011#7
  | .rem rd rs1 rs2 => encR 0b0000001#7 rs2 rs1 0b110#3 rd 0b0110011#7
  | .remu rd rs1 rs2 => encR 0b0000001#7 rs2 rs1 0b111#3 rd 0b0110011#7
  | .mulw rd rs1 rs2 => encR 0b0000001#7 rs2 rs1 0b000#3 rd 0b0111011#7
  | .divw rd rs1 rs2 => encR 0b0000001#7 rs2 rs1 0b100#3 rd 0b0111011#7
  | .divuw rd rs1 rs2 => encR 0b0000001#7 rs2 rs1 0b101#3 rd 0b0111011#7
  | .remw rd rs1 rs2 => encR 0b0000001#7 rs2 rs1 0b110#3 rd 0b0111011#7
  | .remuw rd rs1 rs2 => encR 0b0000001#7 rs2 rs1 0b111#3 rd 0b0111011#7
  | .lrW rd rs1 aq rl => encAmo 0b00010#5 aq rl 0#5 rs1 0b010#3 rd 0b0101111#7
  | .scW rd rs2 rs1 aq rl => encAmo 0b00011#5 aq rl rs2 rs1 0b010#3 rd 0b0101111#7
  | .amoswapW rd rs2 rs1 aq rl => encAmo 0b00001#5 aq rl rs2 rs1 0b010#3 rd 0b0101111#7
  | .amoaddW rd rs2 rs1 aq rl => encAmo 0b00000#5 aq rl rs2 rs1 0b010#3 rd 0b0101111#7
  | .amoxorW rd rs2 rs1 aq rl => encAmo 0b00100#5 aq rl rs2 rs1 0b010#3 rd 0b0101111#7
  | .amoandW rd rs2 rs1 aq rl => encAmo 0b01100#5 aq rl rs2 rs1 0b010#3 rd 0b0101111#7
  | .amoorW rd rs2 rs1 aq rl => encAmo 0b01000#5 aq rl rs2 rs1 0b010#3 rd 0b0101111#7
  | .amominW rd rs2 rs1 aq rl => encAmo 0b10000#5 aq rl rs2 rs1 0b010#3 rd 0b0101111#7
  | .amomaxW rd rs2 rs1 aq rl => encAmo 0b10100#5 aq rl rs2 rs1 0b010#3 rd 0b0101111#7
  | .amominuW rd rs2 rs1 aq rl => encAmo 0b11000#5 aq rl rs2 rs1 0b010#3 rd 0b0101111#7
  | .amomaxuW rd rs2 rs1 aq rl => encAmo 0b11100#5 aq rl rs2 rs1 0b010#3 rd 0b0101111#7
  | .lrD rd rs1 aq rl => encAmo 0b00010#5 aq rl 0#5 rs1 0b011#3 rd 0b0101111#7
  | .scD rd rs2 rs1 aq rl => encAmo 0b00011#5 aq rl rs2 rs1 0b011#3 rd 0b0101111#7
  | .amoswapD rd rs2 rs1 aq rl => encAmo 0b00001#5 aq rl rs2 rs1 0b011#3 rd 0b0101111#7
  | .amoaddD rd rs2 rs1 aq rl => encAmo 0b00000#5 aq rl rs2 rs1 0b011#3 rd 0b0101111#7
  | .amoxorD rd rs2 rs1 aq rl => encAmo 0b00100#5 aq rl rs2 rs1 0b011#3 rd 0b0101111#7
  | .amoandD rd rs2 rs1 aq rl => encAmo 0b01100#5 aq rl rs2 rs1 0b011#3 rd 0b0101111#7
  | .amoorD rd rs2 rs1 aq rl => encAmo 0b01000#5 aq rl rs2 rs1 0b011#3 rd 0b0101111#7
  | .amominD rd rs2 rs1 aq rl => encAmo 0b10000#5 aq rl rs2 rs1 0b011#3 rd 0b0101111#7
  | .amomaxD rd rs2 rs1 aq rl => encAmo 0b10100#5 aq rl rs2 rs1 0b011#3 rd 0b0101111#7
  | .amominuD rd rs2 rs1 aq rl => encAmo 0b11000#5 aq rl rs2 rs1 0b011#3 rd 0b0101111#7
  | .amomaxuD rd rs2 rs1 aq rl => encAmo 0b11100#5 aq rl rs2 rs1 0b011#3 rd 0b0101111#7
  | .flw rd rs1 imm => encI imm rs1 0b010#3 rd 0b0000111#7
  | .fsw rs2 rs1 imm => encS imm rs2 rs1 0b010#3 0b0100111#7
  | .fmaddS rd rs1 rs2 rs3 rm => encR4 rs3 0b00#2 rs2 rs1 rm rd 0b1000011#7
  | .fmsubS rd rs1 rs2 rs3 rm => encR4 rs3 0b00#2 rs2 rs1 rm rd 0b1000111#7
  | .fnmsubS rd rs1 rs2 rs3 rm => encR4 rs3 0b00#2 rs2 rs1 rm rd 0b1001011#7
  | .fnmaddS rd rs1 rs2 rs3 rm => encR4 rs3 0b00#2 rs2 rs1 rm rd 0b1001111#7
  | .faddS rd rs1 rs2 rm => encR 0b0000000#7 rs2 rs1 rm rd 0b1010011#7
  | .fsubS rd rs1 rs2 rm => encR 0b0000100#7 rs2 rs1 rm rd 0b1010011#7
  | .fmulS rd rs1 rs2 rm => encR 0b0001000#7 rs2 rs1 rm rd 0b1010011#7
  | .fdivS rd rs1 rs2 rm => encR 0b0001100#7 rs2 rs1 rm rd 0b1010011#7
  | .fsqrtS rd rs1 rm => encR 0b0101100#7 0b00000#5 rs1 rm rd 0b1010011#7
  | .fsgnjS rd rs1 rs2 => encR 0b0010000#7 rs2 rs1 0b000#3 rd 0b1010011#7
  | .fsgnjnS rd rs1 rs2 => encR 0b0010000#7 rs2 rs1 0b001#3 rd 0b1010011#7
  | .fsgnjxS rd rs1 rs2 => encR 0b0010000#7 rs2 rs1 0b010#3 rd 0b1010011#7
  | .fminS rd rs1 rs2 => encR 0b0010100#7 rs2 rs1 0b000#3 rd 0b1010011#7
  | .fmaxS rd rs1 rs2 => encR 0b0010100#7 rs2 rs1 0b001#3 rd 0b1010011#7
  | .fcvtWS rd rs1 rm => encR 0b1100000#7 0b00000#5 rs1 rm rd 0b1010011#7
  | .fcvtWuS rd rs1 rm => encR 0b1100000#7 0b00001#5 rs1 rm rd 0b1010011#7
  | .fcvtLS rd rs1 rm => encR 0b1100000#7 0b00010#5 rs1 rm rd 0b1010011#7
  | .fcvtLuS rd rs1 rm => encR 0b1100000#7 0b00011#5 rs1 rm rd 0b1010011#7
  | .feqS rd rs1 rs2 => encR 0b1010000#7 rs2 rs1 0b010#3 rd 0b1010011#7
  | .fltS rd rs1 rs2 => encR 0b1010000#7 rs2 rs1 0b001#3 rd 0b1010011#7
  | .fleS rd rs1 rs2 => encR 0b1010000#7 rs2 rs1 0b000#3 rd 0b1010011#7
  | .fclassS rd rs1 => encR 0b1110000#7 0b00000#5 rs1 0b001#3 rd 0b1010011#7
  | .fcvtSW rd rs1 rm => encR 0b1101000#7 0b00000#5 rs1 rm rd 0b1010011#7
  | .fcvtSWu rd rs1 rm => encR 0b1101000#7 0b00001#5 rs1 rm rd 0b1010011#7
  | .fcvtSL rd rs1 rm => encR 0b1101000#7 0b00010#5 rs1 rm rd 0b1010011#7
  | .fcvtSLu rd rs1 rm => encR 0b1101000#7 0b00011#5 rs1 rm rd 0b1010011#7
  | .fld rd rs1 imm => encI imm rs1 0b011#3 rd 0b0000111#7
  | .fsd rs2 rs1 imm => encS imm rs2 rs1 0b011#3 0b0100111#7
  | .fmaddD rd rs1 rs2 rs3 rm => encR4 rs3 0b01#2 rs2 rs1 rm rd 0b1000011#7
  | .fmsubD rd rs1 rs2 rs3 rm => encR4 rs3 0b01#2 rs2 rs1 rm rd 0b1000111#7
  | .fnmsubD rd rs1 rs2 rs3 rm => encR4 rs3 0b01#2 rs2 rs1 rm rd 0b1001011#7
  | .fnmaddD rd rs1 rs2 rs3 rm => encR4 rs3 0b01#2 rs2 rs1 rm rd 0b1001111#7
  | .faddD rd rs1 rs2 rm => encR 0b0000001#7 rs2 rs1 rm rd 0b1010011#7
  | .fsubD rd rs1 rs2 rm => encR 0b0000101#7 rs2 rs1 rm rd 0b1010011#7
  | .fmulD rd rs1 rs2 rm => encR 0b0001001#7 rs2 rs1 rm rd 0b1010011#7
  | .fdivD rd rs1 rs2 rm => encR 0b0001101#7 rs2 rs1 rm rd 0b1010011#7
  | .fsqrtD rd rs1 rm => encR 0b0101101#7 0b00000#5 rs1 rm rd 0b1010011#7
  | .fsgnjD rd rs1 rs2 => encR 0b0010001#7 rs2 rs1 0b000#3 rd 0b1010011#7
  | .fsgnjnD rd rs1 rs2 => encR 0b0010001#7 rs2 rs1 0b001#3 rd 0b1010011#7
  | .fsgnjxD rd rs1 rs2 => encR 0b0010001#7 rs2 rs1 0b010#3 rd 0b1010011#7
  | .fminD rd rs1 rs2 => encR 0b0010101#7 rs2 rs1 0b000#3 rd 0b1010011#7
  | .fmaxD rd rs1 rs2 => encR 0b0010101#7 rs2 rs1 0b001#3 rd 0b1010011#7
  | .fcvtWD rd rs1 rm => encR 0b1100001#7 0b00000#5 rs1 rm rd 0b1010011#7
  | .fcvtWuD rd rs1 rm => encR 0b1100001#7 0b00001#5 rs1 rm rd 0b1010011#7
  | .fcvtLD rd rs1 rm => encR 0b1100001#7 0b00010#5 rs1 rm rd 0b1010011#7
  | .fcvtLuD rd rs1 rm => encR 0b1100001#7 0b00011#5 rs1 rm rd 0b1010011#7
  | .feqD rd rs1 rs2 => encR 0b1010001#7 rs2 rs1 0b010#3 rd 0b1010011#7
  | .fltD rd rs1 rs2 => encR 0b1010001#7 rs2 rs1 0b001#3 rd 0b1010011#7
  | .fleD rd rs1 rs2 => encR 0b1010001#7 rs2 rs1 0b000#3 rd 0b1010011#7
  | .fclassD rd rs1 => encR 0b1110001#7 0b00000#5 rs1 0b001#3 rd 0b1010011#7
  | .fcvtDW rd rs1 rm => encR 0b1101001#7 0b00000#5 rs1 rm rd 0b1010011#7
  | .fcvtDWu rd rs1 rm => encR 0b1101001#7 0b00001#5 rs1 rm rd 0b1010011#7
  | .fcvtDL rd rs1 rm => encR 0b1101001#7 0b00010#5 rs1 rm rd 0b1010011#7
  | .fcvtDLu rd rs1 rm => encR 0b1101001#7 0b00011#5 rs1 rm rd 0b1010011#7
  | .fmvXW rd rs1 => encR 0b1110000#7 0b00000#5 rs1 0b000#3 rd 0b1010011#7
  | .fmvWX rd rs1 => encR 0b1111000#7 0b00000#5 rs1 0b000#3 rd 0b1010011#7
  | .fmvXD rd rs1 => encR 0b1110001#7 0b00000#5 rs1 0b000#3 rd 0b1010011#7
  | .fmvDX rd rs1 => encR 0b1111001#7 0b00000#5 rs1 0b000#3 rd 0b1010011#7
  | .fcvtSD rd rs1 rm => encR 0b0100000#7 0b00001#5 rs1 rm rd 0b1010011#7
  | .fcvtDS rd rs1 rm => encR 0b0100001#7 0b00000#5 rs1 rm rd 0b1010011#7
  | .cAddi4spn rd imm => (encCIW 0b000#3 imm rd 0b00#2).setWidth 32
  | .cFld rd rs1 imm => (encCL8 0b001#3 imm rs1 rd 0b00#2).setWidth 32
  | .cLw rd rs1 imm => (encCL4 0b010#3 imm rs1 rd 0b00#2).setWidth 32
  | .cFlw rd rs1 imm => (encCL4 0b011#3 imm rs1 rd 0b00#2).setWidth 32
  | .cLd rd rs1 imm => (encCL8 0b011#3 imm rs1 rd 0b00#2).setWidth 32
  | .cFsd rs2 rs1 imm => (encCL8 0b101#3 imm rs1 rs2 0b00#2).setWidth 32
  | .cSw rs2 rs1 imm => (encCL4 0b110#3 imm rs1 rs2 0b00#2).setWidth 32
  | .cFsw rs2 rs1 imm => (encCL4 0b111#3 imm rs1 rs2 0b00#2).setWidth 32
  | .cSd rs2 rs1 imm => (encCL8 0b111#3 imm rs1 rs2 0b00#2).setWidth 32
  | .cAddi rd imm => (encCI 0b000#3 imm rd 0b01#2).setWidth 32
  | .cJal imm => (encCJ 0b001#3 imm 0b01#2).setWidth 32
  | .cAddiw rd imm => (encCI 0b001#3 imm rd 0b01#2).setWidth 32
  | .cLi rd imm => (encCI 0b010#3 imm rd 0b01#2).setWidth 32
  | .cAddi16sp imm => (encCI16 0b011#3 imm 0b01#2).setWidth 32
  | .cLui rd imm => (encCI 0b011#3 imm rd 0b01#2).setWidth 32
  | .cSrli rd shamt => (encCBI 0b100#3 shamt 0b00#2 rd 0b01#2).setWidth 32
  | .cSrai rd shamt => (encCBI 0b100#3 shamt 0b01#2 rd 0b01#2).setWidth 32
  | .cAndi rd imm => (encCBI 0b100#3 imm 0b10#2 rd 0b01#2).setWidth 32
  | .cSub rd rs2 => (encCA 0b100011#6 rd 0b00#2 rs2 0b01#2).setWidth 32
  | .cXor rd rs2 => (encCA 0b100011#6 rd 0b01#2 rs2 0b01#2).setWidth 32
  | .cOr rd rs2 => (encCA 0b100011#6 rd 0b10#2 rs2 0b01#2).setWidth 32
  | .cAnd rd rs2 => (encCA 0b100011#6 rd 0b11#2 rs2 0b01#2).setWidth 32
  | .cSubw rd rs2 => (encCA 0b100111#6 rd 0b00#2 rs2 0b01#2).setWidth 32
  | .cAddw rd rs2 => (encCA 0b100111#6 rd 0b01#2 rs2 0b01#2).setWidth 32
  | .cJ imm => (encCJ 0b101#3 imm 0b01#2).setWidth 32
  | .cBeqz rs1 imm => (encCB 0b110#3 imm rs1 0b01#2).setWidth 32
  | .cBnez rs1 imm => (encCB 0b111#3 imm rs1 0b01#2).setWidth 32
  | .cSlli rd shamt => (encCI 0b000#3 shamt rd 0b10#2).setWidth 32
  | .cFldsp rd imm => (encCI8 0b001#3 imm rd 0b10#2).setWidth 32
  | .cLwsp rd imm => (encCI4 0b010#3 imm rd 0b10#2).setWidth 32
  | .cFlwsp rd imm => (encCI4 0b011#3 imm rd 0b10#2).setWidth 32
  | .cLdsp rd imm => (encCI8 0b011#3 imm rd 0b10#2).setWidth 32
  | .cJr rs1 => (encCR 0b1000#4 rs1 0#5 0b10#2).setWidth 32
  | .cMv rd rs2 => (encCR 0b1000#4 rd rs2 0b10#2).setWidth 32
  | .cEbreak => (encCR 0b1001#4 0#5 0#5 0b10#2).setWidth 32
  | .cJalr rs1 => (encCR 0b1001#4 rs1 0#5 0b10#2).setWidth 32
  | .cAdd rd rs2 => (encCR 0b1001#4 rd rs2 0b10#2).setWidth 32
  | .cFsdsp rs2 imm => (encCSS8 0b101#3 imm rs2 0b10#2).setWidth 32
  | .cSwsp rs2 imm => (encCSS4 0b110#3 imm rs2 0b10#2).setWidth 32
  | .cFswsp rs2 imm => (encCSS4 0b111#3 imm rs2 0b10#2).setWidth 32
  | .cSdsp rs2 imm => (encCSS8 0b111#3 imm rs2 0b10#2).setWidth 32

end Sys2Proof
end

