-- ==== Sys2Proof/Machine/State.lean ====
section
/-! DEFINITION. The state of the machine, all of it as plain data; the exceptions, faults and refusals; and
the state right after reset. INVENTORY.md lists every field with its rule and its reset value. -/

namespace Sys2Proof.Machine

open Sys2Proof

/-- The privilege mode (R29): codes 0, 1 and 3. -/
inductive Priv where
  | u
  | s
  | m
  deriving DecidableEq, Repr

/-- The writable fields of `mstatus` (R41). The read-only ones (UXL, SXL, XS, SD) are computed when the
register is read. -/
structure Mstatus where
  sie : Bool
  mie : Bool
  spie : Bool
  mpie : Bool
  /-- SPP as the mode it names: S when true, U when false. -/
  spp : Bool
  mpp : Priv
  fs : BitVec 2
  mprv : Bool
  sum : Bool
  mxr : Bool
  tvm : Bool
  tw : Bool
  tsr : Bool
  deriving DecidableEq, Repr

/-- The levels of the interrupt inputs (R54, R397). -/
structure IrqLines where
  mei : Bool
  mti : Bool
  msi : Bool
  sei : Bool
  deriving DecidableEq, Repr

/-- What the environment does at one instruction boundary (R392 step 1): the new interrupt levels, and
whether it clears the load reservation (R78). The model's own: assumption log 10. -/
structure EnvInput where
  irq : IrqLines
  clearResv : Bool
  deriving DecidableEq, Repr

/-- The load reservation (R53): physical address and size. -/
structure Reservation where
  addr : Nat
  size : Nat
  deriving DecidableEq, Repr

/-- An `sfence.vma` that named a page or an address space (R175): the virtual address, if `rs1` was not
x0, and the address-space identifier, if `rs2` was not x0. -/
structure PartialFence where
  vaddr : Option Word
  asid : Option Word
  deriving DecidableEq, Repr

/-- A store since the last full `sfence.vma`: the bytes it changed, with the values before it, and the
narrower fences executed since. The model's own (R71): assumption log 13. -/
structure StaleStore where
  before : List Host.Cell
  fences : List PartialFence
  deriving DecidableEq, Repr

/-- A write that changed `satp` since the last full `sfence.vma`: the value before it, and an address in each
page for which a narrower fence has covered the write since. The model's own (R71): assumption log 14. -/
structure StaleSatp where
  old : Word
  pages : List Word
  deriving DecidableEq, Repr

/-- Memory (R52): the bytes in canonical form (addresses strictly rising, no entry equal to what an
unlisted byte reads as), and what the stores a fetch (R79, assumption log 12) or a page-table read (R71,
assumption log 13) may not see yet have changed, the newest first in both lists. -/
structure Mem where
  cells : List Host.Cell
  staleCode : List (List Host.Cell)
  stalePte : List StaleStore
  deriving DecidableEq, Repr

/-- The whole state of the machine. 64-bit fields are containers of XLEN-bit registers (assumption
log 22); `cfg` holds the parameters (assumption log 1) and no step changes it. -/
structure State where
  cfg : Config
  /-- x0 to x31 (R18); x0 is read and written through `State.getX` and `State.setX`. -/
  x : Vector Word 32
  /-- f0 to f31 (R26), raw bits. -/
  f : Vector Word 32
  /-- The address of the instruction being executed (R22). -/
  pc : Word
  priv : Priv
  mstatus : Mstatus
  /-- `fcsr[4:0]`: NV DZ OF UF NX (R34). -/
  fflags : BitVec 5
  /-- `fcsr[7:5]` (R34). -/
  frm : BitVec 3
  mtvec : Word
  stvec : Word
  medeleg : Word
  mideleg : Word
  mie : Word
  /-- `mip.SSIP` (R45). -/
  ssip : Bool
  /-- `mip.STIP` (R45). -/
  stip : Bool
  /-- The software-written latch of `mip.SEIP` (R45). -/
  seipSw : Bool
  /-- The interrupt inputs as the environment last set them (R54). -/
  irq : IrqLines
  mcounteren : BitVec 32
  scounteren : BitVec 32
  mscratch : Word
  sscratch : Word
  mepc : Word
  sepc : Word
  mcause : Word
  scause : Word
  mtval : Word
  stval : Word
  satp : Word
  /-- `mcycle` as it was at the tick `mcycleFrom` (R35, assumption log 26). -/
  mcycle : BitVec 64
  /-- The model's own: the tick at which `mcycle` was last written (assumption log 26). -/
  mcycleFrom : Nat
  minstret : BitVec 64
  resv : Option Reservation
  mem : Mem
  /-- The model's own, the newest first: see `StaleSatp`. -/
  staleSatp : List StaleSatp
  /-- The model's own: steps begun since reset, the argument of the free values (assumption log 8). -/
  tick : Nat
  /-- The model's own: the environment's inputs of the steps to come (assumption log 10). -/
  env : List EnvInput
  /-- The model's own: memory before the fetch of the running instruction set an A bit, so that a trap
  discards that change (R392 step 7, assumption log 21); `none` when the fetch changed nothing, and
  always between steps. -/
  beforeFetch : Option Mem
  deriving DecidableEq, Repr

/-- The exceptions of R394 by name. -/
inductive Exc where
  | instructionAddressMisaligned
  | instructionAccessFault
  | illegalInstruction
  | breakpoint
  | loadAddressMisaligned
  | loadAccessFault
  | storeAddressMisaligned
  | storeAccessFault
  | environmentCallFromUMode
  | environmentCallFromSMode
  | environmentCallFromMMode
  | instructionPageFault
  | loadPageFault
  | storePageFault
  deriving DecidableEq, Repr

/-- The one way the machine stops by itself. Every exception the spec describes is a trap, a next state. -/
inductive Fault where
  /-- Raised by `step` when the fetch at the given pc lands in an `io` region, whose behaviour the spec
  does not define (R57, U23). SAFE: the model stops where hardware with a device might go on. -/
  | ioFetch (pc : Word)
  deriving DecidableEq, Repr

/-- The reasons the model gives no next state. -/
inductive Refusal where
  /-- Answered by an arm of `exec` whose instruction has no meaning in the model; no arm does. SAFE. -/
  | notModelled (mnemonic : String)
  /-- Answered by a load, store or atomic that every check allows and that touches an `io` region at the
  given physical byte: the spec defines no behaviour of `io` regions and says to refuse (R57, U23). SAFE:
  the model stops where hardware with a device might go on. -/
  | ioAccess (paddr : Nat)
  deriving DecidableEq, Repr

/-- What a rule of the spec comes to: a value, a `raise E(tval)` (R392 step 6), or a refusal. -/
inductive Res (α : Type) where
  | ok (a : α)
  | raise (e : Exc) (tval : Word)
  | refuse (r : Refusal)
  deriving DecidableEq, Repr

/-- `mstatus` at reset (R409): MIE = 0, MPRV = 0, FS = FS_RESET; the rest, unspecified there, 0, with MPP
the least mode there is. DESIGN CHOICE, unsafe (assumption log 5). -/
def Mstatus.reset (c : Config) : Mstatus where
  sie := false
  mie := false
  spie := false
  mpie := false
  spp := false
  mpp := if c.hasU then .u else .m
  fs := c.fsReset
  mprv := false
  sum := false
  mxr := false
  tvm := false
  tw := false
  tsr := false

/-- The machine right after reset in a configuration (R408, R409): every value the spec gives, and, where
it says unspecified, 0. DESIGN CHOICE, unsafe (assumption logs 3 to 8 and 10). -/
def State.resetWith (c : Config) : State where
  cfg := c
  x := Vector.replicate 32 0
  f := Vector.replicate 32 0
  pc := c.resetVector
  priv := .m
  mstatus := Mstatus.reset c
  fflags := 0
  frm := 0
  mtvec := 0
  stvec := 0
  medeleg := 0
  mideleg := 0
  mie := 0
  ssip := false
  stip := false
  seipSw := false
  irq := { mei := false, mti := false, msi := false, sei := false }
  mcounteren := 0
  scounteren := 0
  mscratch := 0
  sscratch := 0
  mepc := 0
  sepc := 0
  mcause := 0
  scause := 0
  mtval := 0
  stval := 0
  satp := 0
  mcycle := 0
  mcycleFrom := 0
  minstret := 0
  resv := none
  mem := { cells := [], staleCode := [], stalePte := [] }
  staleSatp := []
  tick := 0
  env := []
  beforeFetch := none

/-- The machine right after reset, in the default configuration (assumption logs 1 and 2). -/
def State.reset : State := State.resetWith Config.default

end Sys2Proof.Machine
end

