-- ==== Sys2Proof/Machine/Memory.lean ====
section
/-! DEFINITION. Memory as bytes: reading, writing, the canonical form (R52, R58), and the record of old
values that a fetch (R79) or a page-table read (R71) may still see. -/

namespace Sys2Proof.Machine

open Sys2Proof

/-- What a byte reads as that neither the loader nor the hart has written (R409: unspecified). DESIGN
CHOICE, unsafe (assumption log 7). -/
def Mem.unlisted : Byte := 0

/-- The byte at a physical address (R52). -/
def Mem.read (m : Mem) (a : Nat) : Byte := (m.cells.lookup a).getD Mem.unlisted

/-- A cell put before the first one with a higher address. -/
def insertCell : List Host.Cell → Nat → Byte → List Host.Cell
  | [], a, b => [(a, b)]
  | (k, v) :: rest, a, b =>
    if a < k then (a, b) :: (k, v) :: rest else (k, v) :: insertCell rest a b

/-- A list of cells with the byte at an address replaced, in canonical form: an entry equal to what an
unlisted byte reads as is removed. -/
def putCell (cells : List Host.Cell) (a : Nat) (b : Byte) : List Host.Cell :=
  let others := cells.filter fun p => p.1 != a
  if b = Mem.unlisted then others else insertCell others a b

/-- The canonical form: addresses strictly rising, no entry equal to what an unlisted byte reads as. -/
def Mem.wf (m : Mem) : Bool :=
  decide (m.cells.Pairwise fun p q => p.1 < q.1) && m.cells.all fun p => p.2 != Mem.unlisted

/-- The record of a store without the byte at an address. -/
def withoutByte (a : Nat) (before : List Host.Cell) : List Host.Cell := before.filter fun p => p.1 != a

/-- A byte as the loader, or another agent before reset, places it (R415): nothing stale remains of it. -/
def Mem.place (m : Mem) (a : Nat) (b : Byte) : Mem where
  cells := putCell m.cells a b
  staleCode := m.staleCode.map (withoutByte a)
  stalePte := m.stalePte.map fun e => { e with before := withoutByte a e.before }

/-- The number in the bytes at the given addresses, the first the least significant (R58). -/
def Mem.readAll (m : Mem) : List Nat → Nat
  | [] => 0
  | a :: rest => (m.read a).toNat + 256 * m.readAll rest

/-- The addresses of `n` bytes from `a` upwards. -/
def bytesFrom (a n : Nat) : List Nat := (List.range n).map (a + ·)

/-- A number put in the bytes at the given addresses, the first the least significant (R58). -/
def putCells (cells : List Host.Cell) : List Nat → Nat → List Host.Cell
  | [], _ => cells
  | a :: rest, v => putCells (putCell cells a (BitVec.ofNat 8 v)) rest (v / 256)

/-- The bytes a store of a number would change, with their values before it. -/
def Mem.overwritten (m : Mem) : List Nat → Nat → List Host.Cell
  | [], _ => []
  | a :: rest, v =>
    if m.read a = BitVec.ofNat 8 v then m.overwritten rest (v / 256)
    else (a, m.read a) :: m.overwritten rest (v / 256)

/-- A number written by the hart to the bytes at the given addresses, the first the least significant (R58,
R65 step 4). A store that changes a byte joins the ones a fetch (R79, assumption log 12) and a page-table read
(R71, assumption log 13) may not see yet. -/
def Mem.writeAll (m : Mem) (addrs : List Nat) (v : Nat) : Mem :=
  let before := m.overwritten addrs v
  { cells := putCells m.cells addrs v
    staleCode := if before.isEmpty then m.staleCode else before :: m.staleCode
    stalePte := if before.isEmpty then m.stalePte else { before := before, fences := [] } :: m.stalePte }

/-! ## Values before stores -/

/-- Bytes as they were before a store. -/
def rewind (window before : List Host.Cell) : List Host.Cell :=
  window.map fun p => (p.1, (before.lookup p.1).getD p.2)

/-- Bytes as they were before each of the given stores, the newest first. -/
def pastWindows (window : List Host.Cell) : List (List Host.Cell) → List (List Host.Cell)
  | [] => []
  | before :: older => rewind window before :: pastWindows (rewind window before) older

/-- The number in a list of bytes, the first the least significant (R58). -/
def cellsNumber : List Host.Cell → Nat
  | [] => 0
  | p :: rest => p.2.toNat + 256 * cellsNumber rest

/-- The numbers that were in the bytes at the given addresses before each of the given stores, the newest
first. -/
def Mem.past (m : Mem) (addrs : List Nat) (stores : List (List Host.Cell)) : List Nat :=
  (pastWindows (addrs.map fun a => (a, m.read a)) stores).map cellsNumber

/-- The old values a fetch of the given bytes may still return: those before each store since the last
`fence.i` (R79; assumption log 12). -/
def Mem.oldCode (m : Mem) (addrs : List Nat) : List Nat :=
  (m.past addrs m.staleCode).filter fun v => v != m.readAll addrs

/-- The old values a read of the PTE in the given bytes may still return: those before each store that no
fence hides, where `hides` says whether a fence does so for a value (R71; assumption log 13). -/
def Mem.oldPte (m : Mem) (hides : PartialFence → Nat → Bool) (addrs : List Nat) : List Nat :=
  (((m.past addrs (m.stalePte.map (·.before))).zip (m.stalePte.map (·.fences))).filter fun p =>
    p.1 != m.readAll addrs && !p.2.any (hides · p.1)).map (·.1)

/-- `fence.i`: every fetch from now on sees every store (R79, R173). -/
def Mem.fenceCode (m : Mem) : Mem := { m with staleCode := [] }

/-- A full `sfence.vma`: every page-table read from now on sees every store (R71, R175). -/
def Mem.fencePte (m : Mem) : Mem := { m with stalePte := [] }

/-- A narrower `sfence.vma`: it joins the fences since each store before it (R71, R175). -/
def Mem.notePteFence (m : Mem) (fence : PartialFence) : Mem :=
  { m with stalePte := m.stalePte.map fun e => { e with fences := fence :: e.fences } }

end Sys2Proof.Machine
end

