-- ==== Sys2Proof/Machine/Translate.lean ====
section
/-! DEFINITION. Address translation and its checks (R56, R57, R63, R67 to R71): the sign views of a
container, the regions, the page-table walk, and the choice between old and new values that R71 leaves
free. -/

namespace Sys2Proof

/-- An XLEN-bit value in its container: the upper half is zero on RV32 (assumption log 22). -/
def Xlen.norm : Xlen → Word → Word
  | .rv32, v => (v.setWidth 32).setWidth 64
  | .rv64, v => v

/-- `sext_XLEN` read back as a 64-bit two's complement number: the signed view of an XLEN-bit value. -/
def Xlen.sext : Xlen → Word → Word
  | .rv32, v => (v.setWidth 32).signExtend 64
  | .rv64, v => v

end Sys2Proof

namespace Sys2Proof.Machine

open Sys2Proof

/-- Sequencing: the first `raise` or refusal wins (R392 step 7). -/
def Res.bind {α β : Type} : Res α → (α → Res β) → Res β
  | .ok a, k => k a
  | .raise e t, _ => .raise e t
  | .refuse r, _ => .refuse r

/-- The exceptions with another trap value. -/
def Res.withTval {α : Type} (t : Word) : Res α → Res α
  | .raise e _ => .raise e t
  | r => r

/-- The exception of a failed translation (R67). -/
def pageFault : Access → Exc
  | .fetch => .instructionPageFault
  | .load => .loadPageFault
  | .store => .storePageFault

/-- The exception of a failed region check (R67). -/
def accessFault : Access → Exc
  | .fetch => .instructionAccessFault
  | .load => .loadAccessFault
  | .store => .storeAccessFault

/-- The exception of an A or D update the PTE's region forbids, in the numbered step: StoreAccessFault for every
access by row 7 of R394, the access fault of the access by step 7 of R70 ("according to `acc`").
spec/90_conflicts.md does not choose, and neither does the model. DESIGN CHOICE, safe (assumption log 37). -/
def adUpdateFault (tick : Nat) (acc : Access) : Exc :=
  if Config.adFaultIsStores tick acc then .storeAccessFault else accessFault acc

/-- Who accesses memory, as far as the checks of R57, R61 and R67 tell. -/
inductive MemOp where
  | fetch
  | load
  | store
  | lr
  | sc
  | amo
  deriving DecidableEq, Repr

/-- The kind of access translation sees (R68): an AMO and an `sc` are stores, an `lr` a load. -/
def MemOp.access : MemOp → Access
  | .fetch => .fetch
  | .load | .lr => .load
  | .store | .sc | .amo => .store

/-- The attributes an access needs of the region of each of its bytes (R57). -/
def MemOp.allowed : MemOp → Region → Bool
  | .fetch, r => r.executable
  | .load, r => r.readable
  | .store, r => r.writable
  | .lr, r => r.readable && r.atomic
  | .sc, r => r.writable && r.atomic
  | .amo, r => r.readable && r.writable && r.atomic

/-- Every byte lies in a region that satisfies `p` (R57). -/
def allIn (c : Config) (p : Region → Bool) (addrs : List Nat) : Bool :=
  addrs.all fun a => (c.regionAt a).any p

/-- The page-based schemes (R69). -/
inductive Scheme where
  | sv32
  | sv39
  | sv48
  deriving DecidableEq, Repr

/-- LEVELS - 1, the index of the root level (R69). -/
def Scheme.top : Scheme → Nat
  | .sv32 => 1
  | .sv39 => 2
  | .sv48 => 3

/-- PTESIZE (R69). -/
def Scheme.pteSize : Scheme → Nat
  | .sv32 => 4
  | .sv39 | .sv48 => 8

/-- The width of each VPN field (R69). -/
def Scheme.vpnBits : Scheme → Nat
  | .sv32 => 10
  | .sv39 | .sv48 => 9

/-- The width of the PTE's PPN, all fields together, which begins at bit 10 (R69). -/
def Scheme.ppnBits : Scheme → Nat
  | .sv32 => 22
  | .sv39 | .sv48 => 44

/-- The upper bits of a virtual address all equal its top implemented bit (R70 step 0). -/
def Scheme.canonical : Scheme → Word → Bool
  | .sv32, _ => true
  | .sv39, v => (v.setWidth 39).signExtend 64 == v
  | .sv48, v => (v.setWidth 48).signExtend 64 == v

/-- VPN[i] (R69). -/
def Scheme.vpn (sch : Scheme) (i : Nat) (vaddr : Word) : Nat :=
  vaddr.toNat / 2 ^ (12 + sch.vpnBits * i) % 2 ^ sch.vpnBits

/-- The PPN of a PTE (R69). -/
def Scheme.ppn (sch : Scheme) (pte : Nat) : Nat := pte / 2 ^ 10 % 2 ^ sch.ppnBits

/-- The scheme `satp.MODE` names, `none` for Bare (R51, R68, R69). A reserved mode, which `satp` never
holds, counts as Bare. -/
def satpScheme (c : Config) (satp : Word) : Option Scheme :=
  match c.xlen with
  | .rv32 => if satp.getLsbD 31 then some .sv32 else none
  | .rv64 =>
    match satp.extractLsb' 60 4 with
    | 8#4 => some .sv39
    | 9#4 => some .sv48
    | _ => none

/-- `satp.PPN` (R51). -/
def satpPpn (c : Config) (satp : Word) : Nat :=
  match c.xlen with
  | .rv32 => (satp.extractLsb' 0 22).toNat
  | .rv64 => (satp.extractLsb' 0 44).toNat

/-- The low ASIDLEN bits of an address-space identifier (R51, R175). -/
def asidOf (c : Config) (v : Nat) : Nat := v % 2 ^ c.asidLen

/-- `satp.ASID` (R51). -/
def satpAsid (c : Config) (satp : Word) : Nat :=
  match c.xlen with
  | .rv32 => asidOf c (satp.extractLsb' 22 9).toNat
  | .rv64 => asidOf c (satp.extractLsb' 44 16).toNat

/-- Two addresses lie in the same 4096-byte page. -/
def samePage (a b : Word) : Bool := a.toNat / 4096 == b.toNat / 4096

/-- A narrower `sfence.vma` covers the translation of an address in an address space (R71, R175); one
that names an address space does not cover a global mapping (assumption log 15). -/
def PartialFence.covers (fence : PartialFence) (c : Config) (vaddr : Word) (asid : Nat)
    (isGlobal : Bool) : Bool :=
  fence.vaddr.all (samePage · vaddr) &&
    fence.asid.all fun v => asidOf c v.toNat == asid && !isGlobal

/-- The old values of `satp` a translation of the address may still use: those before each write that no
fence has covered since for its page (R71; assumption log 14). -/
def State.oldSatp (s : State) (vaddr : Word) : List Word :=
  (s.staleSatp.filter fun e => e.old != s.satp && !e.pages.any (samePage · vaddr)).map (·.old)

/-- The writes of `satp` that an `sfence.vma` leaves without a cover, and for which pages (R71, R175;
assumption log 14). R71 does not say which address space a fence must name to cover a write of `satp`; the
model asks for that of `satp` at the fence, and takes no mapping as global. DESIGN CHOICE, unsafe. -/
def State.fenceSatp (s : State) (vaddr asid : Option Word) : List StaleSatp :=
  if asid.all fun v => asidOf s.cfg v.toNat == satpAsid s.cfg s.satp then
    match vaddr with
    | none => []
    | some v => s.staleSatp.map fun e => { e with pages := v :: e.pages }
  else s.staleSatp

/-- The `satp` a translation uses: the present one, or, where the environment draws so, an old one (R71;
assumption log 14). -/
def State.satpFor (s : State) (acc : Access) (vaddr : Word) : Word :=
  (s.oldSatp vaddr).getD (Config.satpDraw s.tick acc vaddr.toNat) s.satp

/-- The PTE a walk reads at a physical address: memory's, or, where the environment draws so, the value
before a store that no fence has covered since (R70 step 2, R71; assumption log 13). -/
def State.pteFor (s : State) (acc : Access) (vaddr : Word) (asid : Nat) (isGlobal : Bool)
    (addr size : Nat) : Nat :=
  let bytes := bytesFrom addr size
  let hides := fun (fence : PartialFence) (v : Nat) =>
    fence.covers s.cfg vaddr asid (isGlobal || v.testBit 5)
  (s.mem.oldPte hides bytes).getD (Config.pteDraw s.tick acc vaddr.toNat addr) (s.mem.readAll bytes)

/-- One translation in progress: the access, its effective privilege and address, the scheme and the
address space. -/
structure Walk where
  acc : Access
  priv : Priv
  vaddr : Word
  scheme : Scheme
  asid : Nat
  deriving DecidableEq, Repr

/-- The permission and privilege checks of a leaf (R70 step 5). -/
def State.leafAllows (s : State) (w : Walk) (pte : Nat) : Bool :=
  (match w.acc with
   | .fetch => pte.testBit 3
   | .load => pte.testBit 1 || (s.mstatus.mxr && pte.testBit 3)
   | .store => pte.testBit 2) &&
  (match w.priv with
   | .u => pte.testBit 4
   | .s => !pte.testBit 4 || (s.mstatus.sum && w.acc != .fetch)
   | .m => true)

/-- The A bit, or for a store the D bit, is clear (R70 step 7). -/
def needsAdUpdate (acc : Access) (pte : Nat) : Bool :=
  !pte.testBit 6 || (acc == .store && !pte.testBit 7)

/-- The hardware update of a PTE (R70 step 7): A, and for a store D, are set in its lowest byte. For a
fetch, the memory before it is kept for a trap to restore (R392 step 7, assumption log 21). -/
def State.updateAd (s : State) (acc : Access) (addr : Nat) : State :=
  let bits : Byte := if acc = .store then 0xC0 else 0x40
  { s with
    mem := s.mem.writeAll [addr] (s.mem.read addr ||| bits).toNat
    beforeFetch := if acc = .fetch then some (s.beforeFetch.getD s.mem) else s.beforeFetch }

/-- The physical address a leaf at level `i` gives: the page or superpage frame and the untranslated low
bits (R70 step 8). -/
def leafAddress (w : Walk) (i pte : Nat) : Nat :=
  let span := 2 ^ (w.scheme.vpnBits * i)
  w.scheme.ppn pte / span * span * 4096 + w.vaddr.toNat % (4096 * span)

/-- R70 steps 5 to 8 for a leaf at level `i`, read at `addr`. -/
def State.leaf (s : State) (w : Walk) (i addr pte : Nat) : Res (State × Nat) :=
  if s.leafAllows w pte = false then .raise (pageFault w.acc) w.vaddr
  else if w.scheme.ppn pte % 2 ^ (w.scheme.vpnBits * i) ≠ 0 then .raise (pageFault w.acc) w.vaddr
  else if needsAdUpdate w.acc pte then
    match s.cfg.pteAdUpdate with
    | .fault => .raise (pageFault w.acc) w.vaddr
    | .hardware =>
      if allIn s.cfg (·.writable) (bytesFrom addr w.scheme.pteSize) then
        .ok (s.updateAd w.acc addr, leafAddress w i pte)
      else .raise (adUpdateFault s.tick w.acc) w.vaddr
  else .ok (s, leafAddress w i pte)

/-- What one level of the walk comes to. -/
inductive LevelResult where
  | pointer (table : Nat) (isGlobal : Bool)
  | done (r : Res (State × Nat))
  deriving DecidableEq, Repr

/-- R70 steps 2 to 4 at level `i` with the table at `table`. -/
def State.walkLevel (s : State) (w : Walk) (isGlobal : Bool) (i table : Nat) : LevelResult :=
  let addr := table + w.scheme.vpn i w.vaddr * w.scheme.pteSize
  if allIn s.cfg (fun r => r.readable && !r.io) (bytesFrom addr w.scheme.pteSize) then
    let pte := s.pteFor w.acc w.vaddr w.asid isGlobal addr w.scheme.pteSize
    if !pte.testBit 0 || (!pte.testBit 1 && pte.testBit 2) then
      .done (.raise (pageFault w.acc) w.vaddr)
    else if !pte.testBit 1 && !pte.testBit 3 then
      .pointer (w.scheme.ppn pte * 4096) (isGlobal || pte.testBit 5)
    else .done (s.leaf w i addr pte)
  else .done (.raise (accessFault w.acc) w.vaddr)

/-- The walk from level `i` down (R70 steps 2 to 8): a pointer at level 0 is a page fault. -/
def State.walk (s : State) (w : Walk) : (isGlobal : Bool) → (i table : Nat) → Res (State × Nat)
  | g, 0, table =>
    match s.walkLevel w g 0 table with
    | .pointer _ _ => .raise (pageFault w.acc) w.vaddr
    | .done r => r
  | g, i + 1, table =>
    match s.walkLevel w g (i + 1) table with
    | .pointer table' g' => s.walk w g' i table'
    | .done r => r

/-- The privilege of an access (R63): that of the mode for a fetch; for data, MPP's when MPRV is set. -/
def State.effPriv (s : State) (acc : Access) : Priv :=
  if acc ≠ .fetch ∧ s.mstatus.mprv = true then s.mstatus.mpp else s.priv

/-- `Translate(vaddr, acc, p)` (R68): the physical address, and the state after a hardware update of the
PTE. -/
def State.translate (s : State) (acc : Access) (vaddr : Word) : Res (State × Nat) :=
  let p := s.effPriv acc
  if s.cfg.hasS = false ∨ p = .m then .ok (s, vaddr.toNat)
  else
    let satp := s.satpFor acc vaddr
    match satpScheme s.cfg satp with
    | none => .ok (s, vaddr.toNat)
    | some scheme =>
      if scheme.canonical vaddr then
        s.walk { acc := acc, priv := p, vaddr := vaddr, scheme := scheme,
                 asid := satpAsid s.cfg satp } false scheme.top (satpPpn s.cfg satp * 4096)
      else .raise (pageFault acc) vaddr

end Sys2Proof.Machine
end

