-- ==== Sys2Proof/Machine/Ops.lean ====
section
/-! DEFINITION. The named operations over registers and memory, taking an exception or an interrupt
(R400), the two returns (R401), and retiring an instruction (R392). -/

namespace Sys2Proof.Machine

open Sys2Proof

/-! ## Registers -/

/-- `x[r]` (R18, R19): 0 for x0. -/
def State.getX (s : State) (r : Reg) : Word :=
  if r = 0 then 0 else s.cfg.xlen.norm s.x[r.toNat]

/-- `x[r] <- v` (R18, R19): discarded for x0. -/
def State.setX (s : State) (r : Reg) (v : Word) : State :=
  if r = 0 then s else { s with x := s.x.set r.toNat (s.cfg.xlen.norm v) }

/-- `f[r]`, all FLEN bits (R26). -/
def State.getF (s : State) (r : Reg) : Word :=
  if s.cfg.flen64 then s.f[r.toNat] else (s.f[r.toNat].setWidth 32).setWidth 64

/-- `f[r] <- v`, with FS to Dirty (R26, R221). -/
def State.setF (s : State) (r : Reg) (v : Word) : State :=
  let v' := if s.cfg.flen64 then v else (v.setWidth 32).setWidth 64
  { s with f := s.f.set r.toNat v', mstatus := { s.mstatus with fs := 3 } }

/-- The canonical single NaN (R220, R224). -/
def canonicalNaNS : BitVec 32 := 0x7FC00000

/-- `f32[r]` as an operand (R27): the canonical NaN where the register is not NaN-boxed. -/
def State.getS (s : State) (r : Reg) : BitVec 32 :=
  if s.cfg.flen64 then
    if (s.getF r).extractLsb' 32 32 = 0xFFFFFFFF#32 then (s.getF r).setWidth 32 else canonicalNaNS
  else (s.getF r).setWidth 32

/-- `f32[r] <- v`: NaN-boxed where FLEN = 64 (R27). -/
def State.setS (s : State) (r : Reg) (v : BitVec 32) : State :=
  s.setF r (if s.cfg.flen64 then 0xFFFFFFFF#32 ++ v else v.setWidth 64)

/-- `XLEN`-bit addition to the pc (R22, R23): modulo 2^XLEN. -/
def State.pcPlus (s : State) (offset : Word) : Word := s.cfg.xlen.norm (s.pc + offset)

/-! ## Data accesses -/

/-- The first byte of an access that lies in an `io` region (R57). -/
def ioByte (c : Config) (addrs : List Nat) : Option Nat :=
  addrs.find? fun a => (c.regionAt a).any (·.io)

/-- The physical bytes of an access of `n` bytes: translation, then the region check (R64, R65). -/
def State.physical (s : State) (op : MemOp) (vaddr : Word) (n : Nat) : Res (State × List Nat) :=
  (s.translate op.access vaddr).bind fun (s', pa) =>
    if allIn s'.cfg op.allowed (bytesFrom pa n) then .ok (s', bytesFrom pa n)
    else .raise (accessFault op.access) vaddr

/-- The same one byte at a time in rising order (R61, `bytewise`). -/
def State.physicalBytes (s : State) (op : MemOp) : (n : Nat) → (vaddr : Word) →
    Res (State × List Nat)
  | 0, _ => .ok (s, [])
  | n + 1, vaddr =>
    (s.physical op vaddr 1).bind fun (s1, first) =>
      (s1.physicalBytes op n (s.cfg.xlen.norm (vaddr + 1))).bind fun (s2, rest) =>
        .ok (s2, first ++ rest)

/-- The exception of a misaligned access (R61, R67). -/
def misaligned : Access → Exc
  | .fetch => .instructionAddressMisaligned
  | .load => .loadAddressMisaligned
  | .store => .storeAddressMisaligned

/-- The physical bytes of a data access of `n` bytes, in order of rising virtual address, every check
made: alignment (R61: `lr`, `sc` and AMOs always trap), translation, regions (R67). -/
def State.resolve (s : State) (op : MemOp) (vaddr : Word) (n : Nat) : Res (State × List Nat) :=
  if vaddr.toNat % n = 0 then s.physical op vaddr n
  else
    match op, s.cfg.misalignedData with
    | .load, .bytewise => s.physicalBytes op n vaddr
    | .store, .bytewise => s.physicalBytes op n vaddr
    | _, _ => .raise (misaligned op.access) vaddr

/-- Bytes about to be read or written: refused where one lies in an `io` region (R57, U23; assumption
log 16). -/
def State.mainBytes (s : State) (addrs : List Nat) : Res (State × List Nat) :=
  match ioByte s.cfg addrs with
  | none => .ok (s, addrs)
  | some a => .refuse (.ioAccess a)

/-- The physical bytes of a data access that reads or writes them all: `resolve`, and no `io` region. -/
def State.dataBytes (s : State) (op : MemOp) (vaddr : Word) (n : Nat) : Res (State × List Nat) :=
  (s.resolve op vaddr n).bind fun (s', addrs) => s'.mainBytes addrs

/-- `MemRead(vaddr, n)` (R64): the value zero-extended, and the state after it. -/
def State.load (s : State) (vaddr : Word) (n : Nat) : Res (State × Word) :=
  (s.dataBytes .load vaddr n).bind fun (s', addrs) =>
    .ok (s', BitVec.ofNat 64 (s'.mem.readAll addrs))

/-- `MemWrite(vaddr, n, v)` (R65): the low `n` bytes of `v`. The reservation is not affected. -/
def State.store (s : State) (vaddr : Word) (n : Nat) (v : Word) : Res State :=
  (s.dataBytes .store vaddr n).bind fun (s', addrs) =>
    .ok { s' with mem := s'.mem.writeAll addrs v.toNat }

/-- The physical address of an access that resolved: that of its first byte (R53, R77). -/
def firstByte : List Nat → Nat
  | [] => 0
  | a :: _ => a

/-- `lr` (R195): the value, zero-extended, with the accessed bytes reserved. -/
def State.loadReserve (s : State) (vaddr : Word) (n : Nat) : Res (State × Word) :=
  (s.dataBytes .lr vaddr n).bind fun (s', addrs) =>
    .ok ({ s' with resv := some { addr := firstByte addrs, size := n } },
         BitVec.ofNat 64 (s'.mem.readAll addrs))

/-- `SCSucceeds` (R196 step 3, R78): the reservation is on these very bytes, and the environment's draw
does not say fail (assumption log 11). -/
def State.scSucceeds (s : State) (pa n : Nat) : Bool :=
  s.resv == some { addr := pa, size := n } &&
    !(s.cfg.scSpuriousFail && Config.scDrawFails s.tick)

/-- `sc` (R196): whether it stored, the reservation cleared either way. One that fails stores nothing, in an
`io` region or not. Under PTE_AD_UPDATE = hardware it keeps the A and D update of its translation, which
step 2 makes "exactly as for a store" (R70 step 7), though step 4 says "memory is untouched": the spec does not
say which. DESIGN CHOICE, unsafe (assumption log 38). -/
def State.storeConditional (s : State) (vaddr : Word) (n : Nat) (v : Word) : Res (State × Bool) :=
  (s.resolve .sc vaddr n).bind fun (s', addrs) =>
    if s'.scSucceeds (firstByte addrs) n then
      (s'.mainBytes addrs).bind fun (s'', addrs) =>
        .ok ({ s'' with mem := s''.mem.writeAll addrs v.toNat, resv := none }, true)
    else .ok ({ s' with resv := none }, false)

/-- An AMO (R194 steps 2 and 3): the old value, zero-extended, with `op` of it stored. -/
def State.amo (s : State) (vaddr : Word) (n : Nat) (op : Word → Word) : Res (State × Word) :=
  (s.dataBytes .amo vaddr n).bind fun (s', addrs) =>
    let t := BitVec.ofNat 64 (s'.mem.readAll addrs)
    .ok ({ s' with mem := s'.mem.writeAll addrs (op t).toNat }, t)

/-! ## Fetch -/

/-- One parcel (R66 steps 2 and 4): memory's, or, where the environment draws so, the value before a store
that no `fence.i` has followed (R79; assumption log 12). -/
def State.fetchParcel (s : State) (vaddr : Word) : Res (State × BitVec 16) :=
  (s.physical .fetch vaddr 2).bind fun (s', addrs) =>
    (s'.mainBytes addrs).bind fun (s', addrs) =>
      .ok (s', BitVec.ofNat 16
        ((s'.mem.oldCode addrs).getD (Config.fetchDraw s'.tick vaddr.toNat) (s'.mem.readAll addrs)))

/-- The trap value of a failed second parcel (R66 step 4). -/
def State.secondParcelTval (s : State) : Word :=
  if samePage s.pc (s.pcPlus 2) then s.pc else s.pcPlus 2

/-- `Fetch(pc)` (R66): the word, a 16-bit instruction in its low half. -/
def State.fetch (s : State) : Res (State × BitVec 32) :=
  (s.fetchParcel s.pc).bind fun (s1, lo) =>
    if isLong lo then
      ((s1.fetchParcel (s.pcPlus 2)).withTval s.secondParcelTval).bind fun (s2, hi) =>
        .ok (s2, hi ++ lo)
    else .ok (s1, lo.setWidth 32)

/-! ## Taking an exception or an interrupt -/

/-- The code of an exception (R394). -/
def Exc.code : Exc → Nat
  | .instructionAddressMisaligned => 0
  | .instructionAccessFault => 1
  | .illegalInstruction => 2
  | .breakpoint => 3
  | .loadAddressMisaligned => 4
  | .loadAccessFault => 5
  | .storeAddressMisaligned => 6
  | .storeAccessFault => 7
  | .environmentCallFromUMode => 8
  | .environmentCallFromSMode => 9
  | .environmentCallFromMMode => 11
  | .instructionPageFault => 12
  | .loadPageFault => 13
  | .storePageFault => 15

/-- The trap goes to S-mode (R399): S exists, the mode is below M, and the code is delegated. -/
def State.delegated (s : State) (interrupt : Bool) (code : Nat) : Bool :=
  s.cfg.hasS && s.priv != .m &&
    (if interrupt then s.mideleg.getLsbD code else s.medeleg.getLsbD code)

/-- `(interrupt << (XLEN-1)) | code` (R49, R400). -/
def causeWord (x : Xlen) (interrupt : Bool) (code : Nat) : Word :=
  BitVec.ofNat 64 code ||| (if interrupt then 1#64 <<< (x.bits - 1) else 0)

/-- The handler's address (R43, R400 step 5). -/
def vectorTarget (x : Xlen) (tvec : Word) (interrupt : Bool) (code : Nat) : Word :=
  let base := tvec &&& ~~~3#64
  x.norm (if interrupt = true ∧ tvec.extractLsb' 0 2 = 1#2 then base + BitVec.ofNat 64 (4 * code)
    else base)

/-- The WARL mask of `mepc` and `sepc` (R48). -/
def epcMask (c : Config) (v : Word) : Word :=
  c.xlen.norm (v &&& (if c.extC then ~~~1#64 else ~~~3#64))

/-- `TrapEntry(interrupt, code, epc, tval)` (R400). -/
def State.trapEntry (s : State) (interrupt : Bool) (code : Nat) (epc tval : Word) : State :=
  let x := s.cfg.xlen
  if s.delegated interrupt code then
    { s with
      sepc := epcMask s.cfg epc
      scause := causeWord x interrupt code
      stval := x.norm tval
      mstatus := { s.mstatus with spie := s.mstatus.sie, sie := false, spp := s.priv == .s }
      priv := .s
      resv := none
      pc := vectorTarget x s.stvec interrupt code }
  else
    { s with
      mepc := epcMask s.cfg epc
      mcause := causeWord x interrupt code
      mtval := x.norm tval
      mstatus := { s.mstatus with mpie := s.mstatus.mie, mie := false, mpp := s.priv }
      priv := .m
      resv := none
      pc := vectorTarget x s.mtvec interrupt code }

/-- Memory as it was before the fetch of the running instruction changed it (R392 step 7). -/
def State.discardFetch (s : State) : State :=
  { s with mem := s.beforeFetch.getD s.mem, beforeFetch := none }

/-- The synchronous exception `raise E(tval)` of the instruction at `pc` (R392 step 7, R393). -/
def State.takeException (s : State) (e : Exc) (tval : Word) : State :=
  s.discardFetch.trapEntry false e.code s.pc tval

/-- The outcome of an instruction's rule begun in `s`: on a `raise` every change of the rule is discarded
and the trap is entered from `s` (R392 step 7). -/
def State.commit (s : State) : Res State → Host.Outcome State Fault Refusal
  | .ok t => .next t
  | .raise e tval => .next (s.takeException e tval)
  | .refuse r => .refused r

/-- The trap value of an illegal instruction (R395). -/
def State.illegalTval (s : State) (word : BitVec 32) : Word :=
  match s.cfg.mtvalIllegal with
  | .bits => word.setWidth 64
  | .zero => 0

/-- `raise IllegalInstruction` by the rule of `i` itself (R394, R395). -/
def State.illegal {α : Type} (s : State) (i : Instr) : Res α :=
  .raise .illegalInstruction (s.illegalTval (encode i))

/-! ## Returns from traps -/

/-- The return of `mret` (R174, R401). -/
def State.returnFromM (s : State) : State :=
  { s with
    mstatus := { s.mstatus with
      mie := s.mstatus.mpie, mpie := true, mpp := if s.cfg.hasU then .u else .m }
    priv := s.mstatus.mpp
    resv := none
    pc := s.mepc }

/-- The return of `sret` (R176, R401). -/
def State.returnFromS (s : State) : State :=
  { s with
    mstatus := { s.mstatus with sie := s.mstatus.spie, spie := true, spp := false }
    priv := if s.mstatus.spp then .s else .u
    resv := none
    pc := s.sepc }

/-! ## Retiring -/

/-- The instruction has completed and set the pc itself (R392 step 8): it is counted. -/
def State.count (s : State) : State :=
  { s with minstret := s.minstret + 1, beforeFetch := none }

/-- The instruction has completed with the next pc at `target` (R392 step 8). -/
def State.retireAt (s : State) (target : Word) : State := { s.count with pc := target }

/-- The instruction of `len` bytes has completed (R23, R392 step 8). -/
def State.retire (s : State) (len : Nat) : State := s.retireAt (s.pcPlus (BitVec.ofNat 64 len))

/-- `raise InstructionAddressMisaligned(t)` unless `t` is a multiple of IALIGN/8 (R24, R140). -/
def State.checkTarget (s : State) (t : Word) : Res Unit :=
  if t.toNat % s.cfg.ialignBytes = 0 then .ok () else .raise .instructionAddressMisaligned t

/-! ## The instruction boundary -/

/-- R392 step 1 and the step's number: the environment's next input, if it gives one, sets the interrupt
levels and may clear the reservation (R78, assumption log 10). With none, nothing changes. -/
def State.beginStep (s : State) : State :=
  match s.env with
  | [] => { s with tick := s.tick + 1 }
  | input :: rest =>
    { s with
      tick := s.tick + 1
      env := rest
      irq := input.irq
      resv := if input.clearResv then none else s.resv }

/-- The physical address the next step's fetch reads the parcel at `vaddr` from (R66). -/
def State.fetchAddress (s : State) (vaddr : Word) : Nat :=
  match s.beginStep.physical .fetch vaddr 2 with
  | .ok (_, addrs) => firstByte addrs
  | _ => vaddr.toNat

/-- Two bytes placed by the loader (R415). -/
def Mem.placeParcel (m : Mem) (a n : Nat) : Mem :=
  (m.place a (BitVec.ofNat 8 n)).place (a + 1) (BitVec.ofNat 8 (n / 256))

/-! ## Counters -/

/-- `f 0 + ... + f (n-1)`. -/
def total (f : Nat → Nat) : Nat → Nat
  | 0 => 0
  | n + 1 => total f n + f n

/-- `mcycle` now: its last written value plus the increments of the steps since (R35; assumption
log 26). -/
def State.cycleNow (s : State) : BitVec 64 :=
  s.mcycle + (BitVec.ofNat 64 (total Config.cycleIncrement s.tick) -
    BitVec.ofNat 64 (total Config.cycleIncrement s.mcycleFrom))

/-- `Time()` now (R35; assumption logs 9 and 26). -/
def State.timeNow (s : State) : BitVec 64 :=
  BitVec.ofNat 64 (Config.timeStart + total Config.timeIncrement s.tick)

end Sys2Proof.Machine
end

