-- ==== Sys2Proof/Machine/Operands.lean ====
section
/-! DEFINITION. Operand forms: the immediates of R88 to R92 and R99 as 64-bit sign or zero extensions of
their raw bits, the sizes of loaded values, and effective addresses (R56). A value put in a register is cut
to XLEN by `State.setX`, an address by `State.addrPlus`. -/

namespace Sys2Proof.Machine

open Sys2Proof

/-- The sign extension of a 12-bit immediate (R88, R89). -/
def imm12 (imm : BitVec 12) : Word := imm.signExtend 64

/-- A branch offset from `imm[12:1]` (R90). -/
def branchOffset (imm : BitVec 12) : Word := (imm ++ 0#1).signExtend 64

/-- A jump offset from `imm[20:1]` (R92). -/
def jumpOffset (imm : BitVec 20) : Word := (imm ++ 0#1).signExtend 64

/-- `sext({imm[31:12], 0x000})` (R91). -/
def upperImm (imm : BitVec 20) : Word := (imm ++ 0#12).signExtend 64

/-- The sign extension of a 6-bit compressed immediate (R99). -/
def imm6 (imm : BitVec 6) : Word := imm.signExtend 64

/-- `c.lui`: `sext(nzimm[17:12] << 12)` (R99, R321). -/
def cUpperImm (imm : BitVec 6) : Word := (imm ++ 0#12).signExtend 64

/-- `c.addi16sp`: `sext(nzimm[9:4] << 4)` (R99, R297). -/
def cImm16sp (imm : BitVec 6) : Word := (imm ++ 0#4).signExtend 64

/-- `c.addi4spn`: `zext(nzuimm[9:2] << 2)` (R99, R298). -/
def cImm4spn (imm : BitVec 8) : Word := (imm ++ 0#2).setWidth 64

/-- `c.j`, `c.jal`: the offset from `imm[11:1]` (R99). -/
def cJumpOffset (imm : BitVec 11) : Word := (imm ++ 0#1).signExtend 64

/-- `c.beqz`, `c.bnez`: the offset from `imm[8:1]` (R99). -/
def cBranchOffset (imm : BitVec 8) : Word := (imm ++ 0#1).signExtend 64

/-- The word loads and stores: `uimm[6:2]` scaled by 4 (R99). -/
def cOffset4 (imm : BitVec 5) : Word := (imm ++ 0#2).setWidth 64

/-- The doubleword loads and stores: `uimm[7:3]` scaled by 8 (R99). -/
def cOffset8 (imm : BitVec 5) : Word := (imm ++ 0#3).setWidth 64

/-- The stack-relative word forms: `uimm[7:2]` scaled by 4 (R99). -/
def cSpOffset4 (imm : BitVec 6) : Word := (imm ++ 0#2).setWidth 64

/-- The stack-relative doubleword forms: `uimm[8:3]` scaled by 8 (R99). -/
def cSpOffset8 (imm : BitVec 6) : Word := (imm ++ 0#3).setWidth 64

/-- `x2`, the base of the stack-relative forms (R20). -/
def sp : Reg := 2

/-- `x1`, the link register of `c.jal` and `c.jalr` (R20). -/
def ra : Reg := 1

/-- `sext_XLEN(v[7:0])`. -/
def sextB (v : Word) : Word := (v.setWidth 8).signExtend 64

/-- `sext_XLEN(v[15:0])`. -/
def sextH (v : Word) : Word := (v.setWidth 16).signExtend 64

/-- `sext_XLEN(v[31:0])`. -/
def sextW (v : Word) : Word := (v.setWidth 32).signExtend 64

/-- `zext_XLEN` of a value that a load already zero-extended. -/
def zext (v : Word) : Word := v

/-- `x[base] + offset`, modulo 2^XLEN (R56). -/
def State.addrPlus (s : State) (base : Reg) (offset : Word) : Word :=
  s.cfg.xlen.norm (s.getX base + offset)

/-- A condition as an XLEN-bit 0 or 1 (R124). -/
def boolWord (b : Bool) : Word := if b then 1 else 0

end Sys2Proof.Machine
end

