-- ==== Sys2Proof/Machine/Alu.lean ====
section
/-! DEFINITION. The integer functions of R110 to R139, R178, R179 and R194 on register values. A value is
an XLEN-bit number in its container; a result is cut to XLEN when it is put in a register. -/

namespace Sys2Proof.Machine

open Sys2Proof

/-- `a <s b` on XLEN bits (R124). -/
def ltSigned (x : Xlen) (a b : Word) : Bool := (x.sext a).slt (x.sext b)

/-- `a <u b` on XLEN bits (R127). -/
def ltUnsigned (x : Xlen) (a b : Word) : Bool := (x.norm a).ult (x.norm b)

/-- A shift amount in a register: its low log2(XLEN) bits (R120). -/
def shiftAmount (x : Xlen) (v : Word) : Nat := v.toNat % x.bits

/-- A word-shift amount in a register: its low 5 bits (R123). -/
def shiftAmountW (v : Word) : Nat := v.toNat % 32

/-- `a << n` (R120): the bits above XLEN are cut by the register. -/
def shiftLeft (a : Word) (n : Nat) : Word := a <<< n

/-- `a >>u n` on XLEN bits (R132). -/
def shiftRight (x : Xlen) (a : Word) (n : Nat) : Word := x.norm a >>> n

/-- `a >>s n` on XLEN bits (R128). -/
def shiftRightArith (x : Xlen) (a : Word) (n : Nat) : Word := (x.sext a).sshiftRight n

/-- `sext_XLEN((a << n)[31:0])` (R123). -/
def shiftLeftW (a : Word) (n : Nat) : Word := sextW (a <<< n)

/-- `sext_XLEN(a[31:0] >>u n)` (R135). -/
def shiftRightW (a : Word) (n : Nat) : Word := ((a.setWidth 32) >>> n).signExtend 64

/-- `sext_XLEN(a[31:0] >>s n)` (R131). -/
def shiftRightArithW (a : Word) (n : Nat) : Word := ((a.setWidth 32).sshiftRight n).signExtend 64

/-- The XLEN-bit value read as a two's complement number. -/
def signedView (x : Xlen) (a : Word) : Int := (x.sext a).toInt

/-- The XLEN-bit value read as an unsigned number. -/
def unsignedView (x : Xlen) (a : Word) : Int := ((x.norm a).toNat : Int)

/-- Bits 2*XLEN-1 to XLEN of an exact product (R178). -/
def highHalf (x : Xlen) (product : Int) : Word := BitVec.ofInt 64 (product / 2 ^ x.bits)

/-- `DIV_CORNERS` (R179): a corner's result as a number. -/
def cornerNumber (v : CornerValue) (dividend : Int) : Int :=
  match v with
  | .allOnes => -1
  | .dividend => dividend
  | .zero => 0

/-- `div_s` on `n` bits (R178, R179). -/
def divSigned (d : DivCorners) (n : Nat) (a b : Int) : Int :=
  if b = 0 then cornerNumber d.zeroQuotient a
  else if a = -2 ^ (n - 1) ∧ b = -1 then cornerNumber d.overflowQuotient a
  else a.tdiv b

/-- `rem_s` on `n` bits (R178, R179). -/
def remSigned (d : DivCorners) (n : Nat) (a b : Int) : Int :=
  if b = 0 then cornerNumber d.zeroRemainder a
  else if a = -2 ^ (n - 1) ∧ b = -1 then cornerNumber d.overflowRemainder a
  else a.tmod b

/-- `div_u` (R178, R179), on numbers that are not negative. -/
def divUnsigned (d : DivCorners) (a b : Int) : Int :=
  if b = 0 then cornerNumber d.zeroQuotient a else a / b

/-- `rem_u` (R178, R179), on numbers that are not negative. -/
def remUnsigned (d : DivCorners) (a b : Int) : Int :=
  if b = 0 then cornerNumber d.zeroRemainder a else a % b

/-- A number as a register value. -/
def ofNumber (v : Int) : Word := BitVec.ofInt 64 v

/-- The low 32 bits as a two's complement number. -/
def signedViewW (a : Word) : Int := (a.setWidth 32).toInt

/-- The low 32 bits as an unsigned number. -/
def unsignedViewW (a : Word) : Int := ((a.setWidth 32).toNat : Int)

/-- The larger or smaller of two values by an order: `if less then b else a` keeps `a` on equality
(R194). -/
def pick (takeSecond : Bool) (a b : Word) : Word := if takeSecond then b else a

/-- The signed order of the low 32 bits (R194, `.w`). -/
def ltSignedW (a b : Word) : Bool := (a.setWidth 32).slt (b.setWidth 32)

/-- The unsigned order of the low 32 bits (R194, `.w`). -/
def ltUnsignedW (a b : Word) : Bool := (a.setWidth 32).ult (b.setWidth 32)

end Sys2Proof.Machine
end

