-- ==== Sys2Proof/Machine/Csr.lean ====
section
/-! DEFINITION. The control and status registers (R30 to R51): which exist, who may access them, what each
reads, what a write to each changes, and the interrupt that is pending (R397). -/

namespace Sys2Proof.Machine

open Sys2Proof

/-- The CSRs of R33. `hpmcounter n` is the user view of counter `n` (either half), `hardwired` one of the
machine-level counters and events that read 0 and ignore writes (R36). -/
inductive Csr where
  | fflags
  | frm
  | fcsr
  | cycle
  | time
  | instret
  | cycleh
  | timeh
  | instreth
  | hpmcounter (n : Nat)
  | sstatus
  | sie
  | stvec
  | scounteren
  | sscratch
  | sepc
  | scause
  | stval
  | sip
  | satp
  | mvendorid
  | marchid
  | mimpid
  | mhartid
  | mstatus
  | misa
  | medeleg
  | mideleg
  | mie
  | mtvec
  | mcounteren
  | mscratch
  | mepc
  | mcause
  | mtval
  | mip
  | mcycle
  | minstret
  | mcycleh
  | minstreth
  | hardwired
  deriving DecidableEq, Repr

/-- A CSR that exists if a condition holds. -/
def existsIf (b : Bool) (r : Csr) : Option Csr := if b then some r else none

/-- The hardware performance-monitor CSRs (R33, R36): numbers 3 to 31 of each block. -/
def hpmAt (c : Config) (a : BitVec 12) : Option Csr :=
  let n := (a.extractLsb' 0 5).toNat
  let is32 := c.xlen == .rv32
  if n < 3 then none
  else
    match a.extractLsb' 5 7 with
    | 0b1100000#7 => some (.hpmcounter n)
    | 0b1100100#7 => existsIf is32 (.hpmcounter n)
    | 0b0011001#7 => some .hardwired
    | 0b1011000#7 => some .hardwired
    | 0b1011100#7 => existsIf is32 .hardwired
    | _ => none

/-- The CSR at an address, if it exists in the configuration (R33). -/
def csrAt (c : Config) (a : BitVec 12) : Option Csr :=
  let is32 := c.xlen == .rv32
  match a with
  | 0x001#12 => existsIf c.extF .fflags
  | 0x002#12 => existsIf c.extF .frm
  | 0x003#12 => existsIf c.extF .fcsr
  | 0xC00#12 => some .cycle
  | 0xC01#12 => some .time
  | 0xC02#12 => some .instret
  | 0xC80#12 => existsIf is32 .cycleh
  | 0xC81#12 => existsIf is32 .timeh
  | 0xC82#12 => existsIf is32 .instreth
  | 0x100#12 => existsIf c.hasS .sstatus
  | 0x104#12 => existsIf c.hasS .sie
  | 0x105#12 => existsIf c.hasS .stvec
  | 0x106#12 => existsIf c.hasS .scounteren
  | 0x140#12 => existsIf c.hasS .sscratch
  | 0x141#12 => existsIf c.hasS .sepc
  | 0x142#12 => existsIf c.hasS .scause
  | 0x143#12 => existsIf c.hasS .stval
  | 0x144#12 => existsIf c.hasS .sip
  | 0x180#12 => existsIf c.hasS .satp
  | 0xF11#12 => some .mvendorid
  | 0xF12#12 => some .marchid
  | 0xF13#12 => some .mimpid
  | 0xF14#12 => some .mhartid
  | 0x300#12 => some .mstatus
  | 0x301#12 => some .misa
  | 0x302#12 => existsIf c.hasS .medeleg
  | 0x303#12 => existsIf c.hasS .mideleg
  | 0x304#12 => some .mie
  | 0x305#12 => some .mtvec
  | 0x306#12 => existsIf c.hasU .mcounteren
  | 0x340#12 => some .mscratch
  | 0x341#12 => some .mepc
  | 0x342#12 => some .mcause
  | 0x343#12 => some .mtval
  | 0x344#12 => some .mip
  | 0xB00#12 => some .mcycle
  | 0xB02#12 => some .minstret
  | 0xB80#12 => existsIf is32 .mcycleh
  | 0xB82#12 => existsIf is32 .minstreth
  | _ => hpmAt c a

/-! ## Access (R31) -/

/-- The code of a mode (R29). -/
def Priv.code : Priv → Nat
  | .u => 0
  | .s => 1
  | .m => 3

/-- The lowest mode that may access the CSR (R31 check 1): `a[9:8]`, with 2 counted as 3. -/
def csrLevel (a : BitVec 12) : Nat :=
  let l := (a.extractLsb' 8 2).toNat
  if l = 2 then 3 else l

/-- `a[11:10]` = 11: read-only (R31 check 3). -/
def csrReadOnly (a : BitVec 12) : Bool := a.extractLsb' 10 2 == 3#2

/-- A counter view may be read in the mode (R37). -/
def State.counterEnabled (s : State) (bit : Nat) : Bool :=
  match s.priv with
  | .m => true
  | .s => s.mcounteren.getLsbD bit
  | .u => s.mcounteren.getLsbD bit && (!s.cfg.hasS || s.scounteren.getLsbD bit)

/-- The extra conditions of particular CSRs (R31 check 4). -/
def State.csrExtra (s : State) : Csr → Bool
  | .fflags | .frm | .fcsr => s.mstatus.fs != 0
  | .cycle | .cycleh => s.counterEnabled 0
  | .time | .timeh => s.counterEnabled 1
  | .instret | .instreth => s.counterEnabled 2
  | .hpmcounter n => s.counterEnabled n
  | .satp => !(s.priv == .s && s.mstatus.tvm)
  | _ => true

/-- The access check (R31): the CSR, or `none` where it raises IllegalInstruction. -/
def State.csrAccess (s : State) (a : BitVec 12) (writes : Bool) : Option Csr :=
  if s.priv.code < csrLevel a then none
  else if writes && csrReadOnly a then none
  else (csrAt s.cfg a).filter fun r => s.csrExtra r

/-! ## Reading -/

/-- A flag at a bit position. -/
def bitAt (b : Bool) (n : Nat) : Word := if b then 1#64 <<< n else 0

/-- A condition on a read-only field of two bits holding 2. -/
def twoAt (b : Bool) (n : Nat) : Word := if b then 2#64 <<< n else 0

/-- `mstatus` as it reads (R41), with UXL, SXL and SD computed. -/
def State.mstatusWord (s : State) : Word :=
  let m := s.mstatus
  let is64 := s.cfg.xlen == .rv64
  bitAt m.sie 1 ||| bitAt m.mie 3 ||| bitAt m.spie 5 ||| bitAt m.mpie 7 ||| bitAt m.spp 8 |||
    BitVec.ofNat 64 (m.mpp.code * 2 ^ 11) ||| (m.fs.setWidth 64 <<< 13) ||| bitAt m.mprv 17 |||
    bitAt m.sum 18 ||| bitAt m.mxr 19 ||| bitAt m.tvm 20 ||| bitAt m.tw 21 ||| bitAt m.tsr 22 |||
    twoAt (is64 && s.cfg.hasU) 32 ||| twoAt (is64 && s.cfg.hasS) 34 |||
    bitAt (m.fs == 3) (s.cfg.xlen.bits - 1)

/-- The bits of `mstatus` that `sstatus` shows (R42). -/
def sstatusMask : Xlen → Word
  | .rv32 => 0x800DE122
  | .rv64 => 0x80000003000DE122

/-- `mip` with a given SEIP (R45): SSIP, STIP and SEIP exist where S does, and read 0 where it does not
(R396). -/
def State.mipWith (s : State) (seip : Bool) : Word :=
  let hasS := s.cfg.hasS
  bitAt (hasS && s.ssip) 1 ||| bitAt s.irq.msi 3 ||| bitAt (hasS && s.stip) 5 ||| bitAt s.irq.mti 7 |||
    bitAt (hasS && seip) 9 ||| bitAt s.irq.mei 11

/-- `mip` as it reads, and as the interrupt logic sees it (R45, R397). -/
def State.mipWord (s : State) : Word := s.mipWith (s.seipSw || s.irq.sei)

/-- The supervisor interrupts delegated to S-mode (R44, R46). -/
def State.delegatedIrqs (s : State) : Word := s.mideleg &&& 0x222

/-- `misa` (R40). -/
def misaWord (c : Config) : Word :=
  (match c.xlen with
   | .rv32 => 1#64 <<< 30
   | .rv64 => 2#64 <<< 62) |||
    bitAt c.extA 0 ||| bitAt c.extC 2 ||| bitAt c.extD 3 ||| bitAt c.extF 5 ||| bitAt true 8 |||
    bitAt c.extM 12 ||| bitAt c.hasS 18 ||| bitAt c.hasU 20

/-- Bits 63 to 32 of a counter (R35). -/
def highWord (v : BitVec 64) : Word := v >>> 32

/-- `fcsr` as it reads (R34). -/
def State.fcsrWord (s : State) : Word := (s.frm ++ s.fflags).setWidth 64

/-- The value a CSR reads (R34 to R51). On RV32 `setX` keeps the low 32 bits. -/
def State.csrRead (s : State) : Csr → Word
  | .fflags => s.fflags.setWidth 64
  | .frm => s.frm.setWidth 64
  | .fcsr => s.fcsrWord
  | .cycle | .mcycle => s.cycleNow
  | .time => s.timeNow
  | .instret | .minstret => s.minstret
  | .cycleh | .mcycleh => highWord s.cycleNow
  | .timeh => highWord s.timeNow
  | .instreth | .minstreth => highWord s.minstret
  | .hpmcounter _ => 0
  | .sstatus => s.mstatusWord &&& sstatusMask s.cfg.xlen
  | .sie => s.mie &&& s.delegatedIrqs
  | .stvec => s.stvec
  | .scounteren => s.scounteren.setWidth 64
  | .sscratch => s.sscratch
  | .sepc => s.sepc
  | .scause => s.scause
  | .stval => s.stval
  | .sip => s.mipWord &&& s.delegatedIrqs
  | .satp => s.satp
  | .mvendorid => s.cfg.mvendorid
  | .marchid => s.cfg.marchid
  | .mimpid => s.cfg.mimpid
  | .mhartid => s.cfg.hartId
  | .mstatus => s.mstatusWord
  | .misa => misaWord s.cfg
  | .medeleg => s.medeleg
  | .mideleg => s.mideleg
  | .mie => s.mie
  | .mtvec => s.mtvec
  | .mcounteren => s.mcounteren.setWidth 64
  | .mscratch => s.mscratch
  | .mepc => s.mepc
  | .mcause => s.mcause
  | .mtval => s.mtval
  | .mip => s.mipWord
  | .hardwired => 0

/-- The old value a read-modify-write starts from: what the CSR reads, but for `mip` the latch `seip_sw`
alone in bit 9 (R45). -/
def State.csrBase (s : State) (r : Csr) : Word :=
  match r with
  | .mip => s.mipWith s.seipSw
  | _ => s.csrRead r

/-! ## Writing -/

/-- The mode a written MPP names, if it is one of MODES (R41). -/
def legalMpp (c : Config) (v : BitVec 2) : Option Priv :=
  match v with
  | 0#2 => if c.hasU then some .u else none
  | 1#2 => if c.hasS then some .s else none
  | 3#2 => some .m
  | _ => none

/-- A write to `sstatus`: SIE, SPIE, SPP, FS, SUM, MXR (R42). FS exists if EXT_F (R41). -/
def State.writeSstatus (s : State) (v : Word) : State :=
  { s with mstatus := { s.mstatus with
      sie := v.getLsbD 1
      spie := v.getLsbD 5
      spp := v.getLsbD 8
      fs := if s.cfg.extF then v.extractLsb' 13 2 else 0
      sum := v.getLsbD 18
      mxr := v.getLsbD 19 } }

/-- A write to `mstatus` (R41): each field that exists; an illegal MPP leaves MPP as it was. -/
def State.writeMstatus (s : State) (v : Word) : State :=
  let hasS := s.cfg.hasS
  let hasU := s.cfg.hasU
  { s with mstatus := {
      sie := hasS && v.getLsbD 1
      mie := v.getLsbD 3
      spie := hasS && v.getLsbD 5
      mpie := v.getLsbD 7
      spp := hasS && v.getLsbD 8
      mpp := (legalMpp s.cfg (v.extractLsb' 11 2)).getD s.mstatus.mpp
      fs := if s.cfg.extF then v.extractLsb' 13 2 else 0
      mprv := hasU && v.getLsbD 17
      sum := hasS && v.getLsbD 18
      mxr := hasS && v.getLsbD 19
      tvm := hasS && v.getLsbD 20
      tw := hasU && v.getLsbD 21
      tsr := hasS && v.getLsbD 22 } }

/-- `mode` is in SATP_MODES (R51, R68). -/
def satpLegal (c : Config) (v : Word) : Bool :=
  match c.xlen with
  | .rv32 => !v.getLsbD 31 || c.sv32
  | .rv64 =>
    match v.extractLsb' 60 4 with
    | 0#4 => true
    | 8#4 => c.sv39
    | 9#4 => c.sv48
    | _ => false

/-- The value `satp` holds after a legal write (R51): of ASID only the low ASIDLEN bits. -/
def satpStored (c : Config) (v : Word) : Word :=
  match c.xlen with
  | .rv32 =>
    (bitAt (v.getLsbD 31) 31) ||| BitVec.ofNat 64 (satpAsid c v * 2 ^ 22) |||
      (v.extractLsb' 0 22).setWidth 64
  | .rv64 =>
    ((v.extractLsb' 60 4).setWidth 64 <<< 60) ||| BitVec.ofNat 64 (satpAsid c v * 2 ^ 44) |||
      (v.extractLsb' 0 44).setWidth 64

/-- A write to `satp` (R51): nothing at all changes for an unsupported mode. A translation may go on using
the value before the write (R71; assumption log 14). -/
def State.writeSatp (s : State) (v : Word) : State :=
  if satpLegal s.cfg v then
    let new := satpStored s.cfg v
    if new = s.satp then s
    else
      { s with
        satp := new
        staleSatp := { old := s.satp, pages := [] } :: s.staleSatp }
  else s

/-- The WARL mask of `mtvec` and `stvec` (R43): bit 1 is 0. -/
def tvecMask (v : Word) : Word := v &&& ~~~2#64

/-- `mcycle` set to a value from this step on (R35, R161). -/
def State.setCycle (s : State) (v : BitVec 64) : State := { s with mcycle := v, mcycleFrom := s.tick }

/-- What a write to `mcycle` makes of the counter: all of it on RV64, its low half on RV32 (R35). -/
def withLow (x : Xlen) (old v : BitVec 64) : BitVec 64 :=
  match x with
  | .rv32 => old.extractLsb' 32 32 ++ v.extractLsb' 0 32
  | .rv64 => v

/-- What a write to an `h` CSR makes of the counter (R35). -/
def withHigh (old v : BitVec 64) : BitVec 64 := v.extractLsb' 0 32 ++ old.extractLsb' 0 32

/-- FS to Dirty, as every write to a floating-point CSR sets it (R34, R221). -/
def State.dirty (s : State) : State := { s with mstatus := { s.mstatus with fs := 3 } }

/-- A CSR write of an XLEN-bit value (R32 and the register's rule). Read-only CSRs do not get here. -/
def State.csrWrite (s : State) (r : Csr) (v : Word) : State :=
  match r with
  | .fflags => { s.dirty with fflags := v.extractLsb' 0 5 }
  | .frm => { s.dirty with frm := v.extractLsb' 0 3 }
  | .fcsr => { s.dirty with fflags := v.extractLsb' 0 5, frm := v.extractLsb' 5 3 }
  | .sstatus => s.writeSstatus v
  | .sie => { s with mie := (s.mie &&& ~~~s.delegatedIrqs) ||| (v &&& s.delegatedIrqs) }
  | .stvec => { s with stvec := tvecMask v }
  | .scounteren => { s with scounteren := v.setWidth 32 }
  | .sscratch => { s with sscratch := v }
  | .sepc => { s with sepc := epcMask s.cfg v }
  | .scause => { s with scause := v }
  | .stval => { s with stval := v }
  | .sip => if s.mideleg.getLsbD 1 then { s with ssip := v.getLsbD 1 } else s
  | .satp => s.writeSatp v
  | .mstatus => s.writeMstatus v
  | .medeleg => { s with medeleg := v &&& 0xB3FF }
  | .mideleg => { s with mideleg := v &&& 0x222 }
  | .mie => { s with mie := v &&& (if s.cfg.hasS then 0xAAA else 0x888) }
  | .mtvec => { s with mtvec := tvecMask v }
  | .mcounteren => { s with mcounteren := v.setWidth 32 }
  | .mscratch => { s with mscratch := v }
  | .mepc => { s with mepc := epcMask s.cfg v }
  | .mcause => { s with mcause := v }
  | .mtval => { s with mtval := v }
  | .mip =>
    if s.cfg.hasS then
      { s with ssip := v.getLsbD 1, stip := v.getLsbD 5, seipSw := v.getLsbD 9 }
    else s
  | .mcycle => s.setCycle (withLow s.cfg.xlen s.cycleNow v)
  | .mcycleh => s.setCycle (withHigh s.cycleNow v)
  | .minstret => { s with minstret := withLow s.cfg.xlen s.minstret v }
  | .minstreth => { s with minstret := withHigh s.minstret v }
  | .misa | .hardwired => s
  | .cycle | .time | .instret | .cycleh | .timeh | .instreth | .hpmcounter _
  | .mvendorid | .marchid | .mimpid | .mhartid => s

/-! ## The six instructions' rule -/

/-- The CSR is a half of `minstret` (R35, R392 step 8). -/
def Csr.isInstret : Csr → Bool
  | .minstret | .minstreth => true
  | _ => false

/-- The state after the read and the write (R161 steps 2 to 4): `newValue` makes the new value from the
old one. -/
def State.csrUpdate (s : State) (r : Csr) (rd : Reg) (writes : Bool) (newValue : Word → Word) :
    State :=
  let s' := if writes then s.csrWrite r (s.cfg.xlen.norm (newValue (s.csrBase r))) else s
  s'.setX rd (s.csrRead r)

/-- Retiring a CSR instruction (R35, R392 step 8): one that wrote `minstret` is not counted on top. -/
def State.csrRetire (s : State) (r : Csr) (writes : Bool) : State :=
  if writes && r.isInstret then { s with pc := s.pcPlus 4, beforeFetch := none } else s.retire 4

/-- The rule of the six CSR instructions (R161), for the instruction `i`. -/
def State.csrInstr (s : State) (i : Instr) (a : BitVec 12) (rd : Reg) (writes : Bool)
    (newValue : Word → Word) : Res State :=
  match s.csrAccess a writes with
  | none => s.illegal i
  | some r => .ok ((s.csrUpdate r rd writes newValue).csrRetire r writes)

/-! ## Interrupts (R397) -/

/-- The first of the given bits that is set. -/
def firstSet (v : Word) : List Nat → Option Nat
  | [] => none
  | i :: rest => if v.getLsbD i then some i else firstSet v rest

/-- M-destined interrupts are enabled (R397 step 3). -/
def State.mIrqsOn (s : State) : Bool := s.priv != .m || s.mstatus.mie

/-- S-destined interrupts are enabled (R397 step 3). -/
def State.sIrqsOn (s : State) : Bool := s.priv == .u || (s.priv == .s && s.mstatus.sie)

/-- The interrupts S-mode takes (R397 step 2). -/
def State.irqDelegation (s : State) : Word := if s.cfg.hasS then s.mideleg else 0

/-- The interrupt to take, if any (R397, R398). -/
def State.pendingInterrupt (s : State) : Option Nat :=
  let pend := s.mipWord &&& s.mie
  let forM := if s.mIrqsOn then firstSet (pend &&& ~~~s.irqDelegation) [11, 3, 7, 9, 1, 5] else none
  match forM with
  | some i => some i
  | none => if s.sIrqsOn then firstSet (pend &&& s.irqDelegation) [9, 1, 5] else none

/-- An interrupt taken between two instructions (R392 step 3): `epc` is the pc, the trap value 0. -/
def State.takeInterrupt (s : State) (i : Nat) : State := s.trapEntry true i s.pc 0

end Sys2Proof.Machine
end

