-- ==== Sys2Proof/Machine/Flags.lean ====
section
/-! DEFINITION. The floating-point flags and rounding modes (R34, R221, R222). They are the only condition
flags of the machine. -/

namespace Sys2Proof.Machine

open Sys2Proof

/-- The five flags as a mask: NV = 16, DZ = 8, OF = 4, UF = 2, NX = 1 (R221). -/
abbrev FpFlags := BitVec 5

/-- No flag. -/
def flagNone : FpFlags := 0
/-- Inexact. -/
def flagNX : FpFlags := 1
/-- Underflow, always with NX (R223). -/
def flagUFNX : FpFlags := 3
/-- Overflow, always with NX (R223). -/
def flagOFNX : FpFlags := 5
/-- Divide by zero. -/
def flagDZ : FpFlags := 8
/-- Invalid operation. -/
def flagNV : FpFlags := 16

/-- The five rounding modes (R222). -/
inductive Rounding where
  | rne
  | rtz
  | rdn
  | rup
  | rmm
  deriving DecidableEq, Repr

/-- The mode a value names; 5, 6 and 7 name none (R222). -/
def roundingOf (v : BitVec 3) : Option Rounding :=
  match v with
  | 0#3 => some .rne
  | 1#3 => some .rtz
  | 2#3 => some .rdn
  | 3#3 => some .rup
  | 4#3 => some .rmm
  | _ => none

/-- `RoundingMode(rm)` (R222): 7 takes `frm`; `none` where it raises IllegalInstruction. -/
def State.rounding (s : State) (rm : BitVec 3) : Option Rounding :=
  roundingOf (if rm = 7 then s.frm else rm)

/-- `Accrue(fl)` (R221). -/
def State.accrue (s : State) (fl : FpFlags) : State :=
  if fl = 0 then s
  else { s with fflags := s.fflags ||| fl, mstatus := { s.mstatus with fs := 3 } }

/-- `FPCheck()` (R221), for the instruction `i`: what follows runs only with FS not Off. -/
def State.fpCheck {α : Type} (s : State) (i : Instr) (k : Res α) : Res α :=
  if s.mstatus.fs = 0 then s.illegal i else k

/-- `FPCheck()` and then `RoundingMode(rm)` (R222), for the instruction `i`. -/
def State.fpRounded {α : Type} (s : State) (i : Instr) (rm : BitVec 3) (k : Rounding → Res α) :
    Res α :=
  s.fpCheck i (match s.rounding rm with
    | none => s.illegal i
    | some mode => k mode)

end Sys2Proof.Machine
end

