-- ==== Sys2Proof/Machine/Float.lean ====
section
/-! DEFINITION. The numeric functions of R220 to R229 (the parameter `NUMERICS`, assumption log 19), on the
bits of a binary32 or binary64 number as a natural number, with exact integer arithmetic. -/

namespace Sys2Proof.Machine

open Sys2Proof

/-! ## Formats -/

/-- A format (R220): the widths of `exp` and `frac`. -/
structure Format where
  expBits : Nat
  fracBits : Nat
  deriving DecidableEq, Repr

/-- Single precision (R220). -/
def binary32 : Format := { expBits := 8, fracBits := 23 }

/-- Double precision (R220). -/
def binary64 : Format := { expBits := 11, fracBits := 52 }

/-- `emin` (R220): 2 - 2^(E-1). -/
def Format.emin (F : Format) : Int := 2 - 2 ^ (F.expBits - 1)

/-- The weight of the sign bit. -/
def Format.signBit (F : Format) : Nat := 2 ^ (F.expBits + F.fracBits)

/-- The bits of +infinity: all exponent bits, and the least pattern above every finite one. -/
def Format.infBits (F : Format) : Nat := (2 ^ F.expBits - 1) * 2 ^ F.fracBits

/-- The canonical NaN (R220, R224). -/
def Format.nanBits (F : Format) : Nat := F.infBits + 2 ^ (F.fracBits - 1)

/-- The sign bit on a magnitude's bits. -/
def Format.withSign (F : Format) (neg : Bool) (mag : Nat) : Nat :=
  if neg then F.signBit + mag else mag

/-- `sgn` (R225). -/
def Format.sign (F : Format) (a : Nat) : Bool := a / F.signBit % 2 == 1

/-- The bits without the sign. -/
def Format.magnitude (F : Format) (a : Nat) : Nat := a % F.signBit

/-- `neg` (R225): the sign bit inverted. -/
def Format.neg (F : Format) (a : Nat) : Nat := F.withSign (!F.sign a) (F.magnitude a)

/-- What a bit pattern means (R220). A finite non-zero number is `mant * 2^exp` with its sign. -/
inductive Datum where
  | nan (signaling : Bool)
  | inf (neg : Bool)
  | zero (neg : Bool)
  | fin (neg : Bool) (mant : Nat) (exp : Int)
  deriving DecidableEq, Repr

/-- The meaning of a bit pattern (R220). -/
def Format.datum (F : Format) (a : Nat) : Datum :=
  let neg := F.sign a
  let e := F.magnitude a / 2 ^ F.fracBits
  let m := a % 2 ^ F.fracBits
  if e = 2 ^ F.expBits - 1 then
    if m = 0 then .inf neg else .nan (m / 2 ^ (F.fracBits - 1) == 0)
  else if e = 0 then
    if m = 0 then .zero neg else .fin neg m (F.emin - F.fracBits)
  else .fin neg (2 ^ F.fracBits + m) (F.emin - F.fracBits + (e - 1 : Nat))

/-- Any NaN. -/
def Datum.isNaN : Datum → Bool
  | .nan _ => true
  | _ => false

/-- A signaling NaN. -/
def Datum.isSignaling : Datum → Bool
  | .nan signaling => signaling
  | _ => false

/-! ## Exact magnitudes and rounding -/

/-- A positive real number: `num / den * 2^exp`, or `sqrt(rad) * 2^exp`. -/
inductive Magnitude where
  | quot (num den : Nat) (exp : Int)
  | root (rad : Nat) (exp : Int)
  deriving DecidableEq, Repr

/-- What is left of a number after its integer part: nothing, less than a half, a half, or more. -/
inductive Tail where
  | exact
  | below
  | half
  | above
  deriving DecidableEq, Repr

/-- The tail of `r / d` for `r < d`. -/
def tailOf (r d : Nat) : Tail :=
  if r = 0 then .exact else if 2 * r < d then .below else if 2 * r = d then .half else .above

/-- The candidate root with each of the low `k` bits decided, from the highest. -/
def isqrtBits (m : Nat) : (k r : Nat) → Nat
  | 0, r => r
  | k + 1, r => if (r + 2 ^ k) * (r + 2 ^ k) ≤ m then isqrtBits m k (r + 2 ^ k) else isqrtBits m k r

/-- The integer part of the square root. -/
def isqrt (m : Nat) : Nat := isqrtBits m (m.log2 / 2 + 1) 0

/-- The integer part and the tail of the magnitude divided by `2^q`. -/
def Magnitude.truncAt (v : Magnitude) (q : Int) : Nat × Tail :=
  match v with
  | .quot num den exp =>
    let k := exp - q
    let n := num * 2 ^ k.toNat
    let d := den * 2 ^ (-k).toNat
    (n / d, tailOf (n % d) d)
  | .root rad exp =>
    let k := exp - q
    let n := rad * 4 ^ k.toNat
    let d := 4 ^ (-k).toNat
    let r := isqrt (n / d)
    (r, if r * r * d = n then .exact
        else if 4 * n < (2 * r + 1) * (2 * r + 1) * d then .below
        else if 4 * n = (2 * r + 1) * (2 * r + 1) * d then .half
        else .above)

/-- The exponent `L` with `2^L <= v < 2^(L+1)`. -/
def Magnitude.log2 : Magnitude → Int
  | .quot num den exp =>
    let k : Int := (num.log2 : Int) - (den.log2 : Int)
    exp + (if den * 2 ^ k.toNat ≤ num * 2 ^ (-k).toNat then k else k - 1)
  | .root rad exp => exp + (rad.log2 / 2 : Nat)

/-- Whether a magnitude `n` with a tail goes up to `n + 1` in a direction (R223 step 1). -/
def roundsUp (mode : Rounding) (neg : Bool) (n : Nat) (tail : Tail) : Bool :=
  match mode, tail with
  | _, .exact => false
  | .rne, .below => false
  | .rne, .half => n % 2 == 1
  | .rne, .above => true
  | .rtz, _ => false
  | .rdn, _ => neg
  | .rup, _ => !neg
  | .rmm, .below => false
  | .rmm, _ => true

/-- The magnitude rounded to a multiple of `2^q`, in units of `2^q`, and whether that is inexact. -/
def Magnitude.roundAt (v : Magnitude) (mode : Rounding) (neg : Bool) (q : Int) : Nat × Bool :=
  let t := v.truncAt q
  (if roundsUp mode neg t.1 t.2 then t.1 + 1 else t.1, t.2 != .exact)

/-- The result of an overflow (R223 step 2): whether it is infinity. -/
def overflowsToInf (mode : Rounding) (neg : Bool) : Bool :=
  match mode with
  | .rne | .rmm => true
  | .rtz => false
  | .rdn => neg
  | .rup => !neg

/-- A result's bits and its flags (R225). -/
abbrev FpResult := Nat × FpFlags

/-- `Round_F(v, RM)` (R223). With `L` the exponent of `v`, the bits of a result `n * 2^(L - M)` with
`n >= 2^M` are `(L - emin) * 2^M + n`, and those of a multiple `n` of the subnormal unit are `n`. -/
def Format.round (F : Format) (neg : Bool) (v : Magnitude) (mode : Rounding) : FpResult :=
  let L := v.log2
  let r := v.roundAt mode neg (L - F.fracBits)
  let bits := (L - F.emin) * 2 ^ F.fracBits + (r.1 : Int)
  if bits < 2 ^ F.fracBits then
    let sub := v.roundAt mode neg (F.emin - F.fracBits)
    (F.withSign neg sub.1, if sub.2 then flagUFNX else flagNone)
  else if (F.infBits : Int) ≤ bits then
    (F.withSign neg (if overflowsToInf mode neg then F.infBits else F.infBits - 1), flagOFNX)
  else (F.withSign neg bits.toNat, if r.2 then flagNX else flagNone)

/-! ## Arithmetic (R225) -/

/-- The canonical NaN, with NV. -/
def Format.invalid (F : Format) : FpResult := (F.nanBits, flagNV)

/-- The NaN step's result (R224, R225). -/
def Format.nanResult (F : Format) (ds : List Datum) : FpResult :=
  (F.nanBits, if ds.any (·.isSignaling) then flagNV else flagNone)

/-- An exact result: no flag. -/
def exactly (bits : Nat) : FpResult := (bits, flagNone)

/-- A signed finite number as an integer multiple of `2^q`, for `q <= exp`. -/
def scaled (neg : Bool) (mant : Nat) (exp q : Int) : Int :=
  let n : Int := (mant * 2 ^ (exp - q).toNat : Nat)
  if neg then -n else n

/-- The exact sum of two finite numbers, each zero or `mant * 2^exp` with its sign, rounded once; a zero
sum is `whenZero` (R225). -/
def Format.sum (F : Format) (n1 : Bool) (m1 : Nat) (e1 : Int) (n2 : Bool) (m2 : Nat) (e2 : Int)
    (whenZero : FpResult) (mode : Rounding) : FpResult :=
  let q := min e1 e2
  let v := scaled n1 m1 e1 q + scaled n2 m2 e2 q
  if v = 0 then whenZero else F.round (decide (v < 0)) (.quot v.natAbs 1 q) mode

/-- The sign of an exact zero sum of non-zeros or of zeros of opposite signs: -0 under RDN, else +0
(R225). -/
def Format.zeroSum (F : Format) (mode : Rounding) : FpResult :=
  exactly (F.withSign (mode == .rdn) 0)

/-- `FAdd_F(a, b, RM)` (R225). -/
def Format.add (F : Format) (a b : Nat) (mode : Rounding) : FpResult :=
  match F.datum a, F.datum b with
  | .nan p, d => F.nanResult [.nan p, d]
  | d, .nan p => F.nanResult [d, .nan p]
  | .inf n1, .inf n2 => if n1 = n2 then exactly (F.withSign n1 F.infBits) else F.invalid
  | .inf n1, _ => exactly (F.withSign n1 F.infBits)
  | _, .inf n2 => exactly (F.withSign n2 F.infBits)
  | .zero n1, .zero n2 => if n1 = n2 then exactly (F.withSign n1 0) else F.zeroSum mode
  | .zero _, .fin n2 m2 e2 => F.round n2 (.quot m2 1 e2) mode
  | .fin n1 m1 e1, .zero _ => F.round n1 (.quot m1 1 e1) mode
  | .fin n1 m1 e1, .fin n2 m2 e2 => F.sum n1 m1 e1 n2 m2 e2 (F.zeroSum mode) mode

/-- `FSub_F(a, b, RM)` (R225). -/
def Format.sub (F : Format) (a b : Nat) (mode : Rounding) : FpResult := F.add a (F.neg b) mode

/-- `FMul_F(a, b, RM)` (R225). -/
def Format.mul (F : Format) (a b : Nat) (mode : Rounding) : FpResult :=
  match F.datum a, F.datum b with
  | .nan p, d => F.nanResult [.nan p, d]
  | d, .nan p => F.nanResult [d, .nan p]
  | .inf _, .zero _ => F.invalid
  | .zero _, .inf _ => F.invalid
  | .inf n1, .inf n2 => exactly (F.withSign (n1 != n2) F.infBits)
  | .inf n1, .fin n2 _ _ => exactly (F.withSign (n1 != n2) F.infBits)
  | .fin n1 _ _, .inf n2 => exactly (F.withSign (n1 != n2) F.infBits)
  | .zero n1, .zero n2 => exactly (F.withSign (n1 != n2) 0)
  | .zero n1, .fin n2 _ _ => exactly (F.withSign (n1 != n2) 0)
  | .fin n1 _ _, .zero n2 => exactly (F.withSign (n1 != n2) 0)
  | .fin n1 m1 e1, .fin n2 m2 e2 => F.round (n1 != n2) (.quot (m1 * m2) 1 (e1 + e2)) mode

/-- `FDiv_F(a, b, RM)` (R225). -/
def Format.div (F : Format) (a b : Nat) (mode : Rounding) : FpResult :=
  match F.datum a, F.datum b with
  | .nan p, d => F.nanResult [.nan p, d]
  | d, .nan p => F.nanResult [d, .nan p]
  | .inf _, .inf _ => F.invalid
  | .zero _, .zero _ => F.invalid
  | .inf n1, .zero n2 => exactly (F.withSign (n1 != n2) F.infBits)
  | .inf n1, .fin n2 _ _ => exactly (F.withSign (n1 != n2) F.infBits)
  | .zero n1, .inf n2 => exactly (F.withSign (n1 != n2) 0)
  | .fin n1 _ _, .inf n2 => exactly (F.withSign (n1 != n2) 0)
  | .fin n1 _ _, .zero n2 => (F.withSign (n1 != n2) F.infBits, flagDZ)
  | .zero n1, .fin n2 _ _ => exactly (F.withSign (n1 != n2) 0)
  | .fin n1 m1 e1, .fin n2 m2 e2 => F.round (n1 != n2) (.quot m1 m2 (e1 - e2)) mode

/-- `sqrt(mant * 2^exp)` with an even exponent taken out. -/
def rootOf (mant : Nat) (exp : Int) : Magnitude :=
  if exp % 2 = 0 then .root mant (exp / 2) else .root (2 * mant) ((exp - 1) / 2)

/-- `FSqrt_F(a, RM)` (R225). -/
def Format.sqrt (F : Format) (a : Nat) (mode : Rounding) : FpResult :=
  match F.datum a with
  | .nan p => F.nanResult [.nan p]
  | .zero n => exactly (F.withSign n 0)
  | .inf false => exactly F.infBits
  | .inf true => F.invalid
  | .fin true _ _ => F.invalid
  | .fin false m e => F.round false (rootOf m e) mode

/-- The product's infinity and `c` (R225): opposite infinities are invalid. -/
def Format.infPlus (F : Format) (sp : Bool) (c : Datum) : FpResult :=
  match c with
  | .inf nc => if nc = sp then exactly (F.withSign sp F.infBits) else F.invalid
  | _ => exactly (F.withSign sp F.infBits)

/-- A zero product with sign `sp`, plus `c` (R225). -/
def Format.zeroPlus (F : Format) (sp : Bool) (c : Datum) (mode : Rounding) : FpResult :=
  match c with
  | .nan p => F.nanResult [.nan p]
  | .inf nc => exactly (F.withSign nc F.infBits)
  | .zero nc => if nc = sp then exactly (F.withSign sp 0) else F.zeroSum mode
  | .fin nc mc ec => F.round nc (.quot mc 1 ec) mode

/-- A finite non-zero product, plus `c` (R225). -/
def Format.finPlus (F : Format) (sp : Bool) (mp : Nat) (ep : Int) (c : Datum) (mode : Rounding) :
    FpResult :=
  match c with
  | .nan p => F.nanResult [.nan p]
  | .inf nc => exactly (F.withSign nc F.infBits)
  | .zero _ => F.round sp (.quot mp 1 ep) mode
  | .fin nc mc ec => F.sum sp mp ep nc mc ec (F.zeroSum mode) mode

/-- `FMA_F(a, b, c, RM)` (R225): infinity times zero is invalid before the NaN step. -/
def Format.fma (F : Format) (a b c : Nat) (mode : Rounding) : FpResult :=
  let dc := F.datum c
  match F.datum a, F.datum b with
  | .inf _, .zero _ => F.invalid
  | .zero _, .inf _ => F.invalid
  | .nan p, d => F.nanResult [.nan p, d, dc]
  | d, .nan p => F.nanResult [d, .nan p, dc]
  | da, db =>
    if dc.isNaN then F.nanResult [dc]
    else
      match da, db with
      | .inf n1, .inf n2 => F.infPlus (n1 != n2) dc
      | .inf n1, .fin n2 _ _ => F.infPlus (n1 != n2) dc
      | .fin n1 _ _, .inf n2 => F.infPlus (n1 != n2) dc
      | .zero n1, .zero n2 => F.zeroPlus (n1 != n2) dc mode
      | .zero n1, .fin n2 _ _ => F.zeroPlus (n1 != n2) dc mode
      | .fin n1 _ _, .zero n2 => F.zeroPlus (n1 != n2) dc mode
      | .fin n1 m1 e1, .fin n2 m2 e2 => F.finPlus (n1 != n2) (m1 * m2) (e1 + e2) dc mode
      | _, _ => F.invalid

/-- `FCvt_S_D` and `FCvt_D_S` (R225): from the format `G` to `F`. -/
def Format.ofFormat (F G : Format) (a : Nat) (mode : Rounding) : FpResult :=
  match G.datum a with
  | .nan p => F.nanResult [.nan p]
  | .inf n => exactly (F.withSign n F.infBits)
  | .zero n => exactly (F.withSign n 0)
  | .fin n m e => F.round n (.quot m 1 e) mode

/-! ## Minimum, maximum, comparison, classification (R226 to R228) -/

/-- The real order of two numbers that are not NaN, as that of integers: the bits of a magnitude rise with
its value, so the signed magnitude does; +0 and -0 are both 0 (R220, R227). -/
def Format.orderKey (F : Format) (a : Nat) : Int :=
  if F.sign a then -(F.magnitude a : Int) else F.magnitude a

/-- -0 is below +0, otherwise as real numbers (R226 step 3). -/
def Format.below (F : Format) (a b : Nat) : Bool :=
  F.orderKey a < F.orderKey b || (F.orderKey a == F.orderKey b && F.sign a && !F.sign b)

/-- `FMin_F` and `FMax_F` (R226): `first` says whether `a` is chosen when neither is a NaN. -/
def Format.minMax (F : Format) (first : Bool) (a b : Nat) : FpResult :=
  let da := F.datum a
  let db := F.datum b
  let fl := if da.isSignaling || db.isSignaling then flagNV else flagNone
  if da.isNaN && db.isNaN then (F.nanBits, fl)
  else if da.isNaN then (b, fl)
  else if db.isNaN then (a, fl)
  else (if first then a else b, fl)

/-- `FMin_F(a, b)` (R226). -/
def Format.min (F : Format) (a b : Nat) : FpResult := F.minMax (!F.below b a) a b

/-- `FMax_F(a, b)` (R226). -/
def Format.max (F : Format) (a b : Nat) : FpResult := F.minMax (!F.below a b) a b

/-- A comparison (R227): `quiet` ones raise NV for a signaling NaN only. -/
def Format.compare (F : Format) (quiet : Bool) (rel : Int → Int → Bool) (a b : Nat) : FpResult :=
  let da := F.datum a
  let db := F.datum b
  if da.isNaN || db.isNaN then
    (0, if !quiet || da.isSignaling || db.isSignaling then flagNV else flagNone)
  else (if rel (F.orderKey a) (F.orderKey b) then 1 else 0, flagNone)

/-- `FEq_F(a, b)` (R227). -/
def Format.eq (F : Format) (a b : Nat) : FpResult := F.compare true (fun x y => x == y) a b

/-- `FLt_F(a, b)` (R227). -/
def Format.lt (F : Format) (a b : Nat) : FpResult := F.compare false (fun x y => decide (x < y)) a b

/-- `FLe_F(a, b)` (R227). -/
def Format.le (F : Format) (a b : Nat) : FpResult := F.compare false (fun x y => decide (x ≤ y)) a b

/-- `FClass_F(a)` (R228). -/
def Format.classify (F : Format) (a : Nat) : Nat :=
  match F.datum a with
  | .inf true => 2 ^ 0
  | .fin true m _ => if m < 2 ^ F.fracBits then 2 ^ 2 else 2 ^ 1
  | .zero true => 2 ^ 3
  | .zero false => 2 ^ 4
  | .fin false m _ => if m < 2 ^ F.fracBits then 2 ^ 5 else 2 ^ 6
  | .inf false => 2 ^ 7
  | .nan true => 2 ^ 8
  | .nan false => 2 ^ 9

/-- `fsgnj` and its kin (R255 to R257, R288 to R290): `a` with another sign. -/
def Format.inject (F : Format) (neg : Bool) (a : Nat) : Nat := F.withSign neg (F.magnitude a)

/-! ## Conversions (R229) -/

/-- An integer type: its width and whether it is signed (R229). -/
structure IntType where
  bits : Nat
  signed : Bool
  deriving DecidableEq, Repr

/-- `w` (R94). -/
def intW : IntType := { bits := 32, signed := true }
/-- `wu` (R94). -/
def intWU : IntType := { bits := 32, signed := false }
/-- `l` (R94). -/
def intL : IntType := { bits := 64, signed := true }
/-- `lu` (R94). -/
def intLU : IntType := { bits := 64, signed := false }

/-- `lo` (R229). -/
def IntType.lo (t : IntType) : Int := if t.signed then -2 ^ (t.bits - 1) else 0

/-- `hi` (R229). -/
def IntType.hi (t : IntType) : Int := if t.signed then 2 ^ (t.bits - 1) - 1 else 2 ^ t.bits - 1

/-- `FToInt_F(a, RM, bits, sgn)` (R229): the integer, and the flags. -/
def Format.toInt (F : Format) (a : Nat) (mode : Rounding) (t : IntType) : Int × FpFlags :=
  match F.datum a with
  | .nan _ => (t.hi, flagNV)
  | .inf false => (t.hi, flagNV)
  | .inf true => (t.lo, flagNV)
  | .zero _ => (0, flagNone)
  | .fin neg m e =>
    let r := (Magnitude.quot m 1 e).roundAt mode neg 0
    let n : Int := if neg then -(r.1 : Int) else r.1
    if n < t.lo then (t.lo, flagNV)
    else if t.hi < n then (t.hi, flagNV)
    else (n, if r.2 then flagNX else flagNone)

/-- `IntToF_F(x, bits, sgn, RM)` (R229), on the number `n`. -/
def Format.ofInt (F : Format) (n : Int) (mode : Rounding) : FpResult :=
  if n = 0 then exactly 0 else F.round (decide (n < 0)) (.quot n.natAbs 1 0) mode

/-- The number in the low `bits` bits of an integer register (R229). -/
def IntType.read (t : IntType) (v : Word) : Int :=
  let n : Int := (v.toNat % 2 ^ t.bits : Nat)
  if t.signed ∧ 2 ^ (t.bits - 1) ≤ n then n - 2 ^ t.bits else n

/-- An integer result as the value of `x[rd]`: the low `bits` bits, sign-extended (R229: for the unsigned
32-bit conversions too). -/
def IntType.toWord (t : IntType) (n : Int) : Word :=
  if t.bits = 32 then sextW (BitVec.ofInt 64 n) else BitVec.ofInt 64 n

end Sys2Proof.Machine
end

