-- ==== Sys2Proof/Machine/Effects.lean ====
section
/-! DEFINITION. The shapes the instructions' meanings share: each is the outcome of a rule begun in `s`,
given its operands. -/

namespace Sys2Proof.Machine

open Sys2Proof

/-- The outcome of a meaning. -/
abbrev Result := Host.Outcome State Fault Refusal

/-! ## Integer results and control transfer -/

/-- `x[rd] <- v`, and the next instruction `len` bytes on (R23). -/
def State.putX (s : State) (rd : Reg) (v : Word) (len : Nat) : Result :=
  .next ((s.setX rd v).retire len)

/-- A conditional branch (R140): the target is checked only where it is taken. -/
def State.branch (s : State) (taken : Bool) (offset : Word) : Result :=
  if taken then
    s.commit ((s.checkTarget (s.pcPlus offset)).bind fun _ => .ok (s.retireAt (s.pcPlus offset)))
  else .next (s.retire 4)

/-- A jump with a link (R140, R147, R148): nothing is written where the target is misaligned. -/
def State.jump (s : State) (rd : Reg) (target : Word) : Result :=
  s.commit ((s.checkTarget target).bind fun _ =>
    .ok ((s.setX rd (s.pcPlus 4)).retireAt target))

/-- A compressed branch (R303, R304): no alignment check, as EXT_C is present (R81). -/
def State.cBranch (s : State) (taken : Bool) (offset : Word) : Result :=
  .next (if taken then s.retireAt (s.pcPlus offset) else s.retire 2)

/-- A compressed jump that links to the instruction 2 bytes on (R315, R316), or, with `rd` = x0, does not
link (R314, R317). -/
def State.cJump (s : State) (rd : Reg) (target : Word) : Result :=
  .next ((s.setX rd (s.pcPlus 2)).retireAt target)

/-- `v & ~1` (R148). -/
def clearBit0 (v : Word) : Word := v &&& ~~~1#64

/-! ## Loads, stores, atomics -/

/-- `x[rd] <- ext(MemRead(vaddr, n))` (R64, R149). -/
def State.loadX (s : State) (rd : Reg) (vaddr : Word) (n : Nat) (ext : Word → Word) (len : Nat) :
    Result :=
  s.commit ((s.load vaddr n).bind fun (s', v) => .ok ((s'.setX rd (ext v)).retire len))

/-- `MemWrite(vaddr, n, v)` (R65). -/
def State.storeX (s : State) (vaddr : Word) (n : Nat) (v : Word) (len : Nat) : Result :=
  s.commit ((s.store vaddr n v).bind fun s' => .ok (s'.retire len))

/-- `lr` (R195). -/
def State.lrX (s : State) (rd rs1 : Reg) (n : Nat) (ext : Word → Word) : Result :=
  s.commit ((s.loadReserve (s.getX rs1) n).bind fun (s', v) => .ok ((s'.setX rd (ext v)).retire 4))

/-- `sc` (R196): 0 in `x[rd]` where it stored, else 1. -/
def State.scX (s : State) (rd rs2 rs1 : Reg) (n : Nat) : Result :=
  s.commit ((s.storeConditional (s.getX rs1) n (s.getX rs2)).bind fun (s', stored) =>
    .ok ((s'.setX rd (boolWord (!stored))).retire 4))

/-- An AMO (R194): `op(t, v)` stored, the old value in `x[rd]`. -/
def State.amoX (s : State) (rd rs2 rs1 : Reg) (n : Nat) (ext : Word → Word)
    (op : Word → Word → Word) : Result :=
  s.commit ((s.amo (s.getX rs1) n fun t => op t (s.getX rs2)).bind fun (s', t) =>
    .ok ((s'.setX rd (ext t)).retire 4))

/-! ## System instructions -/

/-- One of the six CSR instructions (R161). -/
def State.csr (s : State) (i : Instr) (a : BitVec 12) (rd : Reg) (writes : Bool)
    (newValue : Word → Word) : Result :=
  s.commit (s.csrInstr i a rd writes newValue)

/-- The exception of `ecall` in the mode (R171). -/
def ecallExc : Priv → Exc
  | .u => .environmentCallFromUMode
  | .s => .environmentCallFromSMode
  | .m => .environmentCallFromMMode

/-- An instruction that runs only under a condition on the mode (R163), else IllegalInstruction. -/
def State.privileged (s : State) (i : Instr) (allowed : Bool) (t : State) : Result :=
  s.commit (if allowed then .ok t else s.illegal i)

/-- `sfence.vma` (R175, R71): the address and the address space it is limited to, if any. A full fence
hides every old value, a narrower one those it covers. -/
def State.fenceVma (s : State) (vaddr asid : Option Word) : State :=
  { s with
    mem := if vaddr.isNone && asid.isNone then s.mem.fencePte
      else s.mem.notePteFence { vaddr := vaddr, asid := asid }
    staleSatp := s.fenceSatp vaddr asid }

/-- The operand of `sfence.vma`: none for the register number 0 (R175). -/
def State.fenceOperand (s : State) (r : Reg) : Option Word := if r = 0 then none else some (s.getX r)

/-! ## Floating point -/

/-- `f32[rd] <- r; Accrue(fl)` (R221). -/
def State.putS (s : State) (rd : Reg) (r : FpResult) : State :=
  (s.setS rd (BitVec.ofNat 32 r.1)).accrue r.2

/-- `f64[rd] <- r; Accrue(fl)` (R221). -/
def State.putD (s : State) (rd : Reg) (r : FpResult) : State :=
  (s.setF rd (BitVec.ofNat 64 r.1)).accrue r.2

/-- `f32[r]` as a number's bits (R27). -/
def State.bitsS (s : State) (r : Reg) : Nat := (s.getS r).toNat

/-- `f64[r]` as a number's bits (R26). -/
def State.bitsD (s : State) (r : Reg) : Nat := (s.getF r).toNat

/-- A single-precision result that is rounded (R221, R222). -/
def State.fpS (s : State) (i : Instr) (rd : Reg) (rm : BitVec 3) (op : Rounding → FpResult) :
    Result :=
  s.commit (s.fpRounded i rm fun mode => .ok ((s.putS rd (op mode)).retire 4))

/-- A double-precision result that is rounded (R221, R222). -/
def State.fpD (s : State) (i : Instr) (rd : Reg) (rm : BitVec 3) (op : Rounding → FpResult) :
    Result :=
  s.commit (s.fpRounded i rm fun mode => .ok ((s.putD rd (op mode)).retire 4))

/-- A single-precision result that is not rounded (R221). -/
def State.fpExactS (s : State) (i : Instr) (rd : Reg) (r : FpResult) : Result :=
  s.commit (s.fpCheck i (.ok ((s.putS rd r).retire 4)))

/-- A double-precision result that is not rounded (R221). -/
def State.fpExactD (s : State) (i : Instr) (rd : Reg) (r : FpResult) : Result :=
  s.commit (s.fpCheck i (.ok ((s.putD rd r).retire 4)))

/-- An integer result that is not rounded, with flags (R227, R228). -/
def State.fpX (s : State) (i : Instr) (rd : Reg) (v : Word) (fl : FpFlags) : Result :=
  s.commit (s.fpCheck i (.ok (((s.setX rd v).accrue fl).retire 4)))

/-- A conversion to an integer (R229). -/
def State.fpToX (s : State) (i : Instr) (rd : Reg) (rm : BitVec 3) (t : IntType)
    (op : Rounding → Int × FpFlags) : Result :=
  s.commit (s.fpRounded i rm fun mode =>
    let r := op mode
    .ok (((s.setX rd (t.toWord r.1)).accrue r.2).retire 4))

/-- `f32[rd] <- MemRead(vaddr, 4)` (R245). -/
def State.fpLoadS (s : State) (i : Instr) (rd : Reg) (vaddr : Word) (len : Nat) : Result :=
  s.commit (s.fpCheck i ((s.load vaddr 4).bind fun (s', v) =>
    .ok ((s'.setS rd (v.setWidth 32)).retire len)))

/-- `f[rd] <- MemRead(vaddr, 8)` (R277). -/
def State.fpLoadD (s : State) (i : Instr) (rd : Reg) (vaddr : Word) (len : Nat) : Result :=
  s.commit (s.fpCheck i ((s.load vaddr 8).bind fun (s', v) => .ok ((s'.setF rd v).retire len)))

/-- `MemWrite(vaddr, n, f[rs2][8n-1:0])`, the box not checked (R27). -/
def State.fpStore (s : State) (i : Instr) (rs2 : Reg) (vaddr : Word) (n len : Nat) : Result :=
  s.commit (s.fpCheck i ((s.store vaddr n (s.getF rs2)).bind fun s' => .ok (s'.retire len)))

end Sys2Proof.Machine
end

