-- ==== Sys2Proof/Machine/Atomic.lean ====
section
/-! DEFINITION. The meanings of the atomics (R194 to R219), one definition each. -/

namespace Sys2Proof.Machine

open Sys2Proof

/-- `amoadd.d` (R198). -/
def execAmoaddD (rd rs2 rs1 : Reg) (_aq _rl : BitVec 1) (s : State) : Result :=
  s.amoX rd rs2 rs1 8 zext fun t v => t + v

/-- `amoadd.w` (R199). -/
def execAmoaddW (rd rs2 rs1 : Reg) (_aq _rl : BitVec 1) (s : State) : Result :=
  s.amoX rd rs2 rs1 4 sextW fun t v => t + v

/-- `amoand.d` (R200). -/
def execAmoandD (rd rs2 rs1 : Reg) (_aq _rl : BitVec 1) (s : State) : Result :=
  s.amoX rd rs2 rs1 8 zext fun t v => t &&& v

/-- `amoand.w` (R201). -/
def execAmoandW (rd rs2 rs1 : Reg) (_aq _rl : BitVec 1) (s : State) : Result :=
  s.amoX rd rs2 rs1 4 sextW fun t v => t &&& v

/-- `amomax.d` (R202). -/
def execAmomaxD (rd rs2 rs1 : Reg) (_aq _rl : BitVec 1) (s : State) : Result :=
  s.amoX rd rs2 rs1 8 zext fun t v => pick (t.slt v) t v

/-- `amomax.w` (R203). -/
def execAmomaxW (rd rs2 rs1 : Reg) (_aq _rl : BitVec 1) (s : State) : Result :=
  s.amoX rd rs2 rs1 4 sextW fun t v => pick (ltSignedW t v) t v

/-- `amomaxu.d` (R204). -/
def execAmomaxuD (rd rs2 rs1 : Reg) (_aq _rl : BitVec 1) (s : State) : Result :=
  s.amoX rd rs2 rs1 8 zext fun t v => pick (t.ult v) t v

/-- `amomaxu.w` (R205). -/
def execAmomaxuW (rd rs2 rs1 : Reg) (_aq _rl : BitVec 1) (s : State) : Result :=
  s.amoX rd rs2 rs1 4 sextW fun t v => pick (ltUnsignedW t v) t v

/-- `amomin.d` (R206). -/
def execAmominD (rd rs2 rs1 : Reg) (_aq _rl : BitVec 1) (s : State) : Result :=
  s.amoX rd rs2 rs1 8 zext fun t v => pick (!t.slt v) t v

/-- `amomin.w` (R207). -/
def execAmominW (rd rs2 rs1 : Reg) (_aq _rl : BitVec 1) (s : State) : Result :=
  s.amoX rd rs2 rs1 4 sextW fun t v => pick (!ltSignedW t v) t v

/-- `amominu.d` (R208). -/
def execAmominuD (rd rs2 rs1 : Reg) (_aq _rl : BitVec 1) (s : State) : Result :=
  s.amoX rd rs2 rs1 8 zext fun t v => pick (!t.ult v) t v

/-- `amominu.w` (R209). -/
def execAmominuW (rd rs2 rs1 : Reg) (_aq _rl : BitVec 1) (s : State) : Result :=
  s.amoX rd rs2 rs1 4 sextW fun t v => pick (!ltUnsignedW t v) t v

/-- `amoor.d` (R210). -/
def execAmoorD (rd rs2 rs1 : Reg) (_aq _rl : BitVec 1) (s : State) : Result :=
  s.amoX rd rs2 rs1 8 zext fun t v => t ||| v

/-- `amoor.w` (R211). -/
def execAmoorW (rd rs2 rs1 : Reg) (_aq _rl : BitVec 1) (s : State) : Result :=
  s.amoX rd rs2 rs1 4 sextW fun t v => t ||| v

/-- `amoswap.d` (R212). -/
def execAmoswapD (rd rs2 rs1 : Reg) (_aq _rl : BitVec 1) (s : State) : Result :=
  s.amoX rd rs2 rs1 8 zext fun _ v => v

/-- `amoswap.w` (R213). -/
def execAmoswapW (rd rs2 rs1 : Reg) (_aq _rl : BitVec 1) (s : State) : Result :=
  s.amoX rd rs2 rs1 4 sextW fun _ v => v

/-- `amoxor.d` (R214). -/
def execAmoxorD (rd rs2 rs1 : Reg) (_aq _rl : BitVec 1) (s : State) : Result :=
  s.amoX rd rs2 rs1 8 zext fun t v => t ^^^ v

/-- `amoxor.w` (R215). -/
def execAmoxorW (rd rs2 rs1 : Reg) (_aq _rl : BitVec 1) (s : State) : Result :=
  s.amoX rd rs2 rs1 4 sextW fun t v => t ^^^ v

/-- `lr.d` (R216). -/
def execLrD (rd rs1 : Reg) (_aq _rl : BitVec 1) (s : State) : Result :=
  s.lrX rd rs1 8 zext

/-- `lr.w` (R217). -/
def execLrW (rd rs1 : Reg) (_aq _rl : BitVec 1) (s : State) : Result :=
  s.lrX rd rs1 4 sextW

/-- `sc.d` (R218). -/
def execScD (rd rs2 rs1 : Reg) (_aq _rl : BitVec 1) (s : State) : Result :=
  s.scX rd rs2 rs1 8

/-- `sc.w` (R219). -/
def execScW (rd rs2 rs1 : Reg) (_aq _rl : BitVec 1) (s : State) : Result :=
  s.scX rd rs2 rs1 4

end Sys2Proof.Machine
end

