-- ==== Sys2Proof/Machine/Compressed.lean ====
section
/-! DEFINITION. The meanings of the compressed instructions (R293 to R335), one definition each. -/

namespace Sys2Proof.Machine

open Sys2Proof

/-- `c.add` (R295). -/
def execCAdd (rd rs2 : Reg) (s : State) : Result :=
  s.putX rd (s.getX rd + s.getX rs2) 2

/-- `c.addi` (R296). -/
def execCAddi (rd : Reg) (imm : BitVec 6) (s : State) : Result :=
  s.putX rd (s.getX rd + imm6 imm) 2

/-- `c.addi16sp` (R297). -/
def execCAddi16sp (imm : BitVec 6) (s : State) : Result :=
  s.putX sp (s.getX sp + cImm16sp imm) 2

/-- `c.addi4spn` (R298). -/
def execCAddi4spn (rd : CReg) (imm : BitVec 8) (s : State) : Result :=
  s.putX rd.reg (s.getX sp + cImm4spn imm) 2

/-- `c.addiw` (R299). -/
def execCAddiw (rd : Reg) (imm : BitVec 6) (s : State) : Result :=
  s.putX rd (sextW (s.getX rd + imm6 imm)) 2

/-- `c.addw` (R300). -/
def execCAddw (rd rs2 : CReg) (s : State) : Result :=
  s.putX rd.reg (sextW (s.getX rd.reg + s.getX rs2.reg)) 2

/-- `c.and` (R301). -/
def execCAnd (rd rs2 : CReg) (s : State) : Result :=
  s.putX rd.reg (s.getX rd.reg &&& s.getX rs2.reg) 2

/-- `c.andi` (R302). -/
def execCAndi (rd : CReg) (imm : BitVec 6) (s : State) : Result :=
  s.putX rd.reg (s.getX rd.reg &&& imm6 imm) 2

/-- `c.beqz` (R303). -/
def execCBeqz (rs1 : CReg) (imm : BitVec 8) (s : State) : Result :=
  s.cBranch (s.getX rs1.reg == 0) (cBranchOffset imm)

/-- `c.bnez` (R304). -/
def execCBnez (rs1 : CReg) (imm : BitVec 8) (s : State) : Result :=
  s.cBranch (s.getX rs1.reg != 0) (cBranchOffset imm)

/-- `c.ebreak` (R305). It takes Breakpoint with trap value 0. -/
def execCEbreak (s : State) : Result :=
  s.commit (.raise .breakpoint 0)

/-- `c.fld` (R306). -/
def execCFld (rd rs1 : CReg) (imm : BitVec 5) (s : State) : Result :=
  s.fpLoadD (.cFld rd rs1 imm) rd.reg (s.addrPlus rs1.reg (cOffset8 imm)) 2

/-- `c.fldsp` (R307). -/
def execCFldsp (rd : Reg) (imm : BitVec 6) (s : State) : Result :=
  s.fpLoadD (.cFldsp rd imm) rd (s.addrPlus sp (cSpOffset8 imm)) 2

/-- `c.flw` (R308). -/
def execCFlw (rd rs1 : CReg) (imm : BitVec 5) (s : State) : Result :=
  s.fpLoadS (.cFlw rd rs1 imm) rd.reg (s.addrPlus rs1.reg (cOffset4 imm)) 2

/-- `c.flwsp` (R309). -/
def execCFlwsp (rd : Reg) (imm : BitVec 6) (s : State) : Result :=
  s.fpLoadS (.cFlwsp rd imm) rd (s.addrPlus sp (cSpOffset4 imm)) 2

/-- `c.fsd` (R310). -/
def execCFsd (rs2 rs1 : CReg) (imm : BitVec 5) (s : State) : Result :=
  s.fpStore (.cFsd rs2 rs1 imm) rs2.reg (s.addrPlus rs1.reg (cOffset8 imm)) 8 2

/-- `c.fsdsp` (R311). -/
def execCFsdsp (rs2 : Reg) (imm : BitVec 6) (s : State) : Result :=
  s.fpStore (.cFsdsp rs2 imm) rs2 (s.addrPlus sp (cSpOffset8 imm)) 8 2

/-- `c.fsw` (R312). -/
def execCFsw (rs2 rs1 : CReg) (imm : BitVec 5) (s : State) : Result :=
  s.fpStore (.cFsw rs2 rs1 imm) rs2.reg (s.addrPlus rs1.reg (cOffset4 imm)) 4 2

/-- `c.fswsp` (R313). -/
def execCFswsp (rs2 : Reg) (imm : BitVec 6) (s : State) : Result :=
  s.fpStore (.cFswsp rs2 imm) rs2 (s.addrPlus sp (cSpOffset4 imm)) 4 2

/-- `c.j` (R314). -/
def execCJ (imm : BitVec 11) (s : State) : Result :=
  s.cJump 0 (s.pcPlus (cJumpOffset imm))

/-- `c.jal` (R315). -/
def execCJal (imm : BitVec 11) (s : State) : Result :=
  s.cJump ra (s.pcPlus (cJumpOffset imm))

/-- `c.jalr` (R316). -/
def execCJalr (rs1 : Reg) (s : State) : Result :=
  s.cJump ra (clearBit0 (s.getX rs1))

/-- `c.jr` (R317). -/
def execCJr (rs1 : Reg) (s : State) : Result :=
  s.cJump 0 (clearBit0 (s.getX rs1))

/-- `c.ld` (R318). -/
def execCLd (rd rs1 : CReg) (imm : BitVec 5) (s : State) : Result :=
  s.loadX rd.reg (s.addrPlus rs1.reg (cOffset8 imm)) 8 zext 2

/-- `c.ldsp` (R319). -/
def execCLdsp (rd : Reg) (imm : BitVec 6) (s : State) : Result :=
  s.loadX rd (s.addrPlus sp (cSpOffset8 imm)) 8 zext 2

/-- `c.li` (R320). -/
def execCLi (rd : Reg) (imm : BitVec 6) (s : State) : Result :=
  s.putX rd (imm6 imm) 2

/-- `c.lui` (R321). -/
def execCLui (rd : Reg) (imm : BitVec 6) (s : State) : Result :=
  s.putX rd (cUpperImm imm) 2

/-- `c.lw` (R322). -/
def execCLw (rd rs1 : CReg) (imm : BitVec 5) (s : State) : Result :=
  s.loadX rd.reg (s.addrPlus rs1.reg (cOffset4 imm)) 4 sextW 2

/-- `c.lwsp` (R323). -/
def execCLwsp (rd : Reg) (imm : BitVec 6) (s : State) : Result :=
  s.loadX rd (s.addrPlus sp (cSpOffset4 imm)) 4 sextW 2

/-- `c.mv` (R324). -/
def execCMv (rd rs2 : Reg) (s : State) : Result :=
  s.putX rd (s.getX rs2) 2

/-- `c.or` (R325). -/
def execCOr (rd rs2 : CReg) (s : State) : Result :=
  s.putX rd.reg (s.getX rd.reg ||| s.getX rs2.reg) 2

/-- `c.sd` (R326). -/
def execCSd (rs2 rs1 : CReg) (imm : BitVec 5) (s : State) : Result :=
  s.storeX (s.addrPlus rs1.reg (cOffset8 imm)) 8 (s.getX rs2.reg) 2

/-- `c.sdsp` (R327). -/
def execCSdsp (rs2 : Reg) (imm : BitVec 6) (s : State) : Result :=
  s.storeX (s.addrPlus sp (cSpOffset8 imm)) 8 (s.getX rs2) 2

/-- `c.slli` (R328). -/
def execCSlli (rd : Reg) (shamt : BitVec 6) (s : State) : Result :=
  s.putX rd (shiftLeft (s.getX rd) shamt.toNat) 2

/-- `c.srai` (R329). -/
def execCSrai (rd : CReg) (shamt : BitVec 6) (s : State) : Result :=
  s.putX rd.reg (shiftRightArith s.cfg.xlen (s.getX rd.reg) shamt.toNat) 2

/-- `c.srli` (R330). -/
def execCSrli (rd : CReg) (shamt : BitVec 6) (s : State) : Result :=
  s.putX rd.reg (shiftRight s.cfg.xlen (s.getX rd.reg) shamt.toNat) 2

/-- `c.sub` (R331). -/
def execCSub (rd rs2 : CReg) (s : State) : Result :=
  s.putX rd.reg (s.getX rd.reg - s.getX rs2.reg) 2

/-- `c.subw` (R332). -/
def execCSubw (rd rs2 : CReg) (s : State) : Result :=
  s.putX rd.reg (sextW (s.getX rd.reg - s.getX rs2.reg)) 2

/-- `c.sw` (R333). -/
def execCSw (rs2 rs1 : CReg) (imm : BitVec 5) (s : State) : Result :=
  s.storeX (s.addrPlus rs1.reg (cOffset4 imm)) 4 (s.getX rs2.reg) 2

/-- `c.swsp` (R334). -/
def execCSwsp (rs2 : Reg) (imm : BitVec 6) (s : State) : Result :=
  s.storeX (s.addrPlus sp (cSpOffset4 imm)) 4 (s.getX rs2) 2

/-- `c.xor` (R335). -/
def execCXor (rd rs2 : CReg) (s : State) : Result :=
  s.putX rd.reg (s.getX rd.reg ^^^ s.getX rs2.reg) 2

end Sys2Proof.Machine
end

