-- ==== Sys2Proof/Machine/Control.lean ====
section
/-! DEFINITION. The meanings of the branches and jumps (R140 to R148), one definition each. -/

namespace Sys2Proof.Machine

open Sys2Proof

/-- `beq` (R141). -/
def execBeq (rs1 rs2 : Reg) (imm : BitVec 12) (s : State) : Result :=
  s.branch (s.getX rs1 == s.getX rs2) (branchOffset imm)

/-- `bge` (R142). -/
def execBge (rs1 rs2 : Reg) (imm : BitVec 12) (s : State) : Result :=
  s.branch (!ltSigned s.cfg.xlen (s.getX rs1) (s.getX rs2)) (branchOffset imm)

/-- `bgeu` (R143). -/
def execBgeu (rs1 rs2 : Reg) (imm : BitVec 12) (s : State) : Result :=
  s.branch (!ltUnsigned s.cfg.xlen (s.getX rs1) (s.getX rs2)) (branchOffset imm)

/-- `blt` (R144). -/
def execBlt (rs1 rs2 : Reg) (imm : BitVec 12) (s : State) : Result :=
  s.branch (ltSigned s.cfg.xlen (s.getX rs1) (s.getX rs2)) (branchOffset imm)

/-- `bltu` (R145). -/
def execBltu (rs1 rs2 : Reg) (imm : BitVec 12) (s : State) : Result :=
  s.branch (ltUnsigned s.cfg.xlen (s.getX rs1) (s.getX rs2)) (branchOffset imm)

/-- `bne` (R146). -/
def execBne (rs1 rs2 : Reg) (imm : BitVec 12) (s : State) : Result :=
  s.branch (s.getX rs1 != s.getX rs2) (branchOffset imm)

/-- `jal` (R147). -/
def execJal (rd : Reg) (imm : BitVec 20) (s : State) : Result :=
  s.jump rd (s.pcPlus (jumpOffset imm))

/-- `jalr` (R148). -/
def execJalr (rd rs1 : Reg) (imm : BitVec 12) (s : State) : Result :=
  s.jump rd (clearBit0 (s.addrPlus rs1 (imm12 imm)))

end Sys2Proof.Machine
end

