-- ==== Sys2Proof/Machine/Double.lean ====
section
/-! DEFINITION. The meanings of the double-precision floating point (R261 to R292), one definition each. -/

namespace Sys2Proof.Machine

open Sys2Proof

/-- `fadd.d` (R261). -/
def execFaddD (rd rs1 rs2 : Reg) (rm : BitVec 3) (s : State) : Result :=
  s.fpD (.faddD rd rs1 rs2 rm) rd rm fun mode =>
    binary64.add (s.bitsD rs1) (s.bitsD rs2) mode

/-- `fclass.d` (R262). -/
def execFclassD (rd rs1 : Reg) (s : State) : Result :=
  s.fpX (.fclassD rd rs1) rd (BitVec.ofNat 64 (binary64.classify (s.bitsD rs1))) flagNone

/-- `fcvt.d.l` (R263). -/
def execFcvtDL (rd rs1 : Reg) (rm : BitVec 3) (s : State) : Result :=
  s.fpD (.fcvtDL rd rs1 rm) rd rm fun mode => binary64.ofInt (intL.read (s.getX rs1)) mode

/-- `fcvt.d.lu` (R264). -/
def execFcvtDLu (rd rs1 : Reg) (rm : BitVec 3) (s : State) : Result :=
  s.fpD (.fcvtDLu rd rs1 rm) rd rm fun mode => binary64.ofInt (intLU.read (s.getX rs1)) mode

/-- `fcvt.d.s` (R265). -/
def execFcvtDS (rd rs1 : Reg) (rm : BitVec 3) (s : State) : Result :=
  s.fpD (.fcvtDS rd rs1 rm) rd rm fun mode => binary64.ofFormat binary32 (s.bitsS rs1) mode

/-- `fcvt.d.w` (R266). -/
def execFcvtDW (rd rs1 : Reg) (rm : BitVec 3) (s : State) : Result :=
  s.fpD (.fcvtDW rd rs1 rm) rd rm fun mode => binary64.ofInt (intW.read (s.getX rs1)) mode

/-- `fcvt.d.wu` (R267). -/
def execFcvtDWu (rd rs1 : Reg) (rm : BitVec 3) (s : State) : Result :=
  s.fpD (.fcvtDWu rd rs1 rm) rd rm fun mode => binary64.ofInt (intWU.read (s.getX rs1)) mode

/-- `fcvt.l.d` (R268). -/
def execFcvtLD (rd rs1 : Reg) (rm : BitVec 3) (s : State) : Result :=
  s.fpToX (.fcvtLD rd rs1 rm) rd rm intL fun mode => binary64.toInt (s.bitsD rs1) mode intL

/-- `fcvt.lu.d` (R269). -/
def execFcvtLuD (rd rs1 : Reg) (rm : BitVec 3) (s : State) : Result :=
  s.fpToX (.fcvtLuD rd rs1 rm) rd rm intLU fun mode => binary64.toInt (s.bitsD rs1) mode intLU

/-- `fcvt.s.d` (R270). -/
def execFcvtSD (rd rs1 : Reg) (rm : BitVec 3) (s : State) : Result :=
  s.fpS (.fcvtSD rd rs1 rm) rd rm fun mode => binary32.ofFormat binary64 (s.bitsD rs1) mode

/-- `fcvt.w.d` (R271). -/
def execFcvtWD (rd rs1 : Reg) (rm : BitVec 3) (s : State) : Result :=
  s.fpToX (.fcvtWD rd rs1 rm) rd rm intW fun mode => binary64.toInt (s.bitsD rs1) mode intW

/-- `fcvt.wu.d` (R272). -/
def execFcvtWuD (rd rs1 : Reg) (rm : BitVec 3) (s : State) : Result :=
  s.fpToX (.fcvtWuD rd rs1 rm) rd rm intWU fun mode => binary64.toInt (s.bitsD rs1) mode intWU

/-- `fdiv.d` (R273). -/
def execFdivD (rd rs1 rs2 : Reg) (rm : BitVec 3) (s : State) : Result :=
  s.fpD (.fdivD rd rs1 rs2 rm) rd rm fun mode =>
    binary64.div (s.bitsD rs1) (s.bitsD rs2) mode

/-- `feq.d` (R274). -/
def execFeqD (rd rs1 rs2 : Reg) (s : State) : Result :=
  let r := binary64.eq (s.bitsD rs1) (s.bitsD rs2)
  s.fpX (.feqD rd rs1 rs2) rd (BitVec.ofNat 64 r.1) r.2

/-- `fle.d` (R275). -/
def execFleD (rd rs1 rs2 : Reg) (s : State) : Result :=
  let r := binary64.le (s.bitsD rs1) (s.bitsD rs2)
  s.fpX (.fleD rd rs1 rs2) rd (BitVec.ofNat 64 r.1) r.2

/-- `flt.d` (R276). -/
def execFltD (rd rs1 rs2 : Reg) (s : State) : Result :=
  let r := binary64.lt (s.bitsD rs1) (s.bitsD rs2)
  s.fpX (.fltD rd rs1 rs2) rd (BitVec.ofNat 64 r.1) r.2

/-- `fld` (R277). -/
def execFld (rd rs1 : Reg) (imm : BitVec 12) (s : State) : Result :=
  s.fpLoadD (.fld rd rs1 imm) rd (s.addrPlus rs1 (imm12 imm)) 4

/-- `fmadd.d` (R278). -/
def execFmaddD (rd rs1 rs2 rs3 : Reg) (rm : BitVec 3) (s : State) : Result :=
  s.fpD (.fmaddD rd rs1 rs2 rs3 rm) rd rm fun mode =>
    binary64.fma (s.bitsD rs1) (s.bitsD rs2) (s.bitsD rs3) mode

/-- `fmax.d` (R279). -/
def execFmaxD (rd rs1 rs2 : Reg) (s : State) : Result :=
  s.fpExactD (.fmaxD rd rs1 rs2) rd (binary64.max (s.bitsD rs1) (s.bitsD rs2))

/-- `fmin.d` (R280). -/
def execFminD (rd rs1 rs2 : Reg) (s : State) : Result :=
  s.fpExactD (.fminD rd rs1 rs2) rd (binary64.min (s.bitsD rs1) (s.bitsD rs2))

/-- `fmsub.d` (R281). -/
def execFmsubD (rd rs1 rs2 rs3 : Reg) (rm : BitVec 3) (s : State) : Result :=
  s.fpD (.fmsubD rd rs1 rs2 rs3 rm) rd rm fun mode =>
    binary64.fma (s.bitsD rs1) (s.bitsD rs2) (binary64.neg (s.bitsD rs3)) mode

/-- `fmul.d` (R282). -/
def execFmulD (rd rs1 rs2 : Reg) (rm : BitVec 3) (s : State) : Result :=
  s.fpD (.fmulD rd rs1 rs2 rm) rd rm fun mode =>
    binary64.mul (s.bitsD rs1) (s.bitsD rs2) mode

/-- `fmv.d.x` (R283). -/
def execFmvDX (rd rs1 : Reg) (s : State) : Result :=
  s.fpExactD (.fmvDX rd rs1) rd (exactly (s.getX rs1).toNat)

/-- `fmv.x.d` (R284). -/
def execFmvXD (rd rs1 : Reg) (s : State) : Result :=
  s.fpX (.fmvXD rd rs1) rd (s.getF rs1) flagNone

/-- `fnmadd.d` (R285). -/
def execFnmaddD (rd rs1 rs2 rs3 : Reg) (rm : BitVec 3) (s : State) : Result :=
  s.fpD (.fnmaddD rd rs1 rs2 rs3 rm) rd rm fun mode =>
    binary64.fma (binary64.neg (s.bitsD rs1)) (s.bitsD rs2) (binary64.neg (s.bitsD rs3)) mode

/-- `fnmsub.d` (R286). -/
def execFnmsubD (rd rs1 rs2 rs3 : Reg) (rm : BitVec 3) (s : State) : Result :=
  s.fpD (.fnmsubD rd rs1 rs2 rs3 rm) rd rm fun mode =>
    binary64.fma (binary64.neg (s.bitsD rs1)) (s.bitsD rs2) (s.bitsD rs3) mode

/-- `fsd` (R287). -/
def execFsd (rs2 rs1 : Reg) (imm : BitVec 12) (s : State) : Result :=
  s.fpStore (.fsd rs2 rs1 imm) rs2 (s.addrPlus rs1 (imm12 imm)) 8 4

/-- `fsgnj.d` (R288). -/
def execFsgnjD (rd rs1 rs2 : Reg) (s : State) : Result :=
  s.fpExactD (.fsgnjD rd rs1 rs2) rd
    (exactly (binary64.inject (binary64.sign (s.bitsD rs2)) (s.bitsD rs1)))

/-- `fsgnjn.d` (R289). -/
def execFsgnjnD (rd rs1 rs2 : Reg) (s : State) : Result :=
  s.fpExactD (.fsgnjnD rd rs1 rs2) rd
    (exactly (binary64.inject (!binary64.sign (s.bitsD rs2)) (s.bitsD rs1)))

/-- `fsgnjx.d` (R290). -/
def execFsgnjxD (rd rs1 rs2 : Reg) (s : State) : Result :=
  s.fpExactD (.fsgnjxD rd rs1 rs2) rd
    (exactly (binary64.inject (binary64.sign (s.bitsD rs1) != binary64.sign (s.bitsD rs2)) (s.bitsD rs1)))

/-- `fsqrt.d` (R291). -/
def execFsqrtD (rd rs1 : Reg) (rm : BitVec 3) (s : State) : Result :=
  s.fpD (.fsqrtD rd rs1 rm) rd rm fun mode => binary64.sqrt (s.bitsD rs1) mode

/-- `fsub.d` (R292). -/
def execFsubD (rd rs1 rs2 : Reg) (rm : BitVec 3) (s : State) : Result :=
  s.fpD (.fsubD rd rs1 rs2 rm) rd rm fun mode =>
    binary64.sub (s.bitsD rs1) (s.bitsD rs2) mode

end Sys2Proof.Machine
end

