-- ==== Sys2Proof/Machine/Integer.lean ====
section
/-! DEFINITION. The meanings of the integer computation (R109 to R139), one definition each. -/

namespace Sys2Proof.Machine

open Sys2Proof

/-- `add` (R110). -/
def execAdd (rd rs1 rs2 : Reg) (s : State) : Result :=
  s.putX rd (s.getX rs1 + s.getX rs2) 4

/-- `addi` (R111). -/
def execAddi (rd rs1 : Reg) (imm : BitVec 12) (s : State) : Result :=
  s.putX rd (s.getX rs1 + imm12 imm) 4

/-- `addiw` (R112). -/
def execAddiw (rd rs1 : Reg) (imm : BitVec 12) (s : State) : Result :=
  s.putX rd (sextW (s.getX rs1 + imm12 imm)) 4

/-- `addw` (R113). -/
def execAddw (rd rs1 rs2 : Reg) (s : State) : Result :=
  s.putX rd (sextW (s.getX rs1 + s.getX rs2)) 4

/-- `and` (R114). -/
def execAnd (rd rs1 rs2 : Reg) (s : State) : Result :=
  s.putX rd (s.getX rs1 &&& s.getX rs2) 4

/-- `andi` (R115). -/
def execAndi (rd rs1 : Reg) (imm : BitVec 12) (s : State) : Result :=
  s.putX rd (s.getX rs1 &&& imm12 imm) 4

/-- `auipc` (R116). -/
def execAuipc (rd : Reg) (imm : BitVec 20) (s : State) : Result :=
  s.putX rd (s.pcPlus (upperImm imm)) 4

/-- `lui` (R117). -/
def execLui (rd : Reg) (imm : BitVec 20) (s : State) : Result :=
  s.putX rd (upperImm imm) 4

/-- `or` (R118). -/
def execOr (rd rs1 rs2 : Reg) (s : State) : Result :=
  s.putX rd (s.getX rs1 ||| s.getX rs2) 4

/-- `ori` (R119). -/
def execOri (rd rs1 : Reg) (imm : BitVec 12) (s : State) : Result :=
  s.putX rd (s.getX rs1 ||| imm12 imm) 4

/-- `sll` (R120). -/
def execSll (rd rs1 rs2 : Reg) (s : State) : Result :=
  s.putX rd (shiftLeft (s.getX rs1) (shiftAmount s.cfg.xlen (s.getX rs2))) 4

/-- `slli` (R121). -/
def execSlli (rd rs1 : Reg) (shamt : BitVec 6) (s : State) : Result :=
  s.putX rd (shiftLeft (s.getX rs1) shamt.toNat) 4

/-- `slliw` (R122). -/
def execSlliw (rd rs1 : Reg) (shamt : BitVec 5) (s : State) : Result :=
  s.putX rd (shiftLeftW (s.getX rs1) shamt.toNat) 4

/-- `sllw` (R123). -/
def execSllw (rd rs1 rs2 : Reg) (s : State) : Result :=
  s.putX rd (shiftLeftW (s.getX rs1) (shiftAmountW (s.getX rs2))) 4

/-- `slt` (R124). -/
def execSlt (rd rs1 rs2 : Reg) (s : State) : Result :=
  s.putX rd (boolWord (ltSigned s.cfg.xlen (s.getX rs1) (s.getX rs2))) 4

/-- `slti` (R125). -/
def execSlti (rd rs1 : Reg) (imm : BitVec 12) (s : State) : Result :=
  s.putX rd (boolWord (ltSigned s.cfg.xlen (s.getX rs1) (imm12 imm))) 4

/-- `sltiu` (R126). -/
def execSltiu (rd rs1 : Reg) (imm : BitVec 12) (s : State) : Result :=
  s.putX rd (boolWord (ltUnsigned s.cfg.xlen (s.getX rs1) (imm12 imm))) 4

/-- `sltu` (R127). -/
def execSltu (rd rs1 rs2 : Reg) (s : State) : Result :=
  s.putX rd (boolWord (ltUnsigned s.cfg.xlen (s.getX rs1) (s.getX rs2))) 4

/-- `sra` (R128). -/
def execSra (rd rs1 rs2 : Reg) (s : State) : Result :=
  s.putX rd (shiftRightArith s.cfg.xlen (s.getX rs1) (shiftAmount s.cfg.xlen (s.getX rs2))) 4

/-- `srai` (R129). -/
def execSrai (rd rs1 : Reg) (shamt : BitVec 6) (s : State) : Result :=
  s.putX rd (shiftRightArith s.cfg.xlen (s.getX rs1) shamt.toNat) 4

/-- `sraiw` (R130). -/
def execSraiw (rd rs1 : Reg) (shamt : BitVec 5) (s : State) : Result :=
  s.putX rd (shiftRightArithW (s.getX rs1) shamt.toNat) 4

/-- `sraw` (R131). -/
def execSraw (rd rs1 rs2 : Reg) (s : State) : Result :=
  s.putX rd (shiftRightArithW (s.getX rs1) (shiftAmountW (s.getX rs2))) 4

/-- `srl` (R132). -/
def execSrl (rd rs1 rs2 : Reg) (s : State) : Result :=
  s.putX rd (shiftRight s.cfg.xlen (s.getX rs1) (shiftAmount s.cfg.xlen (s.getX rs2))) 4

/-- `srli` (R133). -/
def execSrli (rd rs1 : Reg) (shamt : BitVec 6) (s : State) : Result :=
  s.putX rd (shiftRight s.cfg.xlen (s.getX rs1) shamt.toNat) 4

/-- `srliw` (R134). -/
def execSrliw (rd rs1 : Reg) (shamt : BitVec 5) (s : State) : Result :=
  s.putX rd (shiftRightW (s.getX rs1) shamt.toNat) 4

/-- `srlw` (R135). -/
def execSrlw (rd rs1 rs2 : Reg) (s : State) : Result :=
  s.putX rd (shiftRightW (s.getX rs1) (shiftAmountW (s.getX rs2))) 4

/-- `sub` (R136). -/
def execSub (rd rs1 rs2 : Reg) (s : State) : Result :=
  s.putX rd (s.getX rs1 - s.getX rs2) 4

/-- `subw` (R137). -/
def execSubw (rd rs1 rs2 : Reg) (s : State) : Result :=
  s.putX rd (sextW (s.getX rs1 - s.getX rs2)) 4

/-- `xor` (R138). -/
def execXor (rd rs1 rs2 : Reg) (s : State) : Result :=
  s.putX rd (s.getX rs1 ^^^ s.getX rs2) 4

/-- `xori` (R139). -/
def execXori (rd rs1 : Reg) (imm : BitVec 12) (s : State) : Result :=
  s.putX rd (s.getX rs1 ^^^ imm12 imm) 4

end Sys2Proof.Machine
end

