-- ==== Sys2Proof/Machine/LoadStore.lean ====
section
/-! DEFINITION. The meanings of the loads and stores (R149 to R160), one definition each. -/

namespace Sys2Proof.Machine

open Sys2Proof

/-- `lb` (R150). -/
def execLb (rd rs1 : Reg) (imm : BitVec 12) (s : State) : Result :=
  s.loadX rd (s.addrPlus rs1 (imm12 imm)) 1 sextB 4

/-- `lbu` (R151). -/
def execLbu (rd rs1 : Reg) (imm : BitVec 12) (s : State) : Result :=
  s.loadX rd (s.addrPlus rs1 (imm12 imm)) 1 zext 4

/-- `ld` (R152). -/
def execLd (rd rs1 : Reg) (imm : BitVec 12) (s : State) : Result :=
  s.loadX rd (s.addrPlus rs1 (imm12 imm)) 8 zext 4

/-- `lh` (R153). -/
def execLh (rd rs1 : Reg) (imm : BitVec 12) (s : State) : Result :=
  s.loadX rd (s.addrPlus rs1 (imm12 imm)) 2 sextH 4

/-- `lhu` (R154). -/
def execLhu (rd rs1 : Reg) (imm : BitVec 12) (s : State) : Result :=
  s.loadX rd (s.addrPlus rs1 (imm12 imm)) 2 zext 4

/-- `lw` (R155). -/
def execLw (rd rs1 : Reg) (imm : BitVec 12) (s : State) : Result :=
  s.loadX rd (s.addrPlus rs1 (imm12 imm)) 4 sextW 4

/-- `lwu` (R156). -/
def execLwu (rd rs1 : Reg) (imm : BitVec 12) (s : State) : Result :=
  s.loadX rd (s.addrPlus rs1 (imm12 imm)) 4 zext 4

/-- `sb` (R157). -/
def execSb (rs2 rs1 : Reg) (imm : BitVec 12) (s : State) : Result :=
  s.storeX (s.addrPlus rs1 (imm12 imm)) 1 (s.getX rs2) 4

/-- `sd` (R158). -/
def execSd (rs2 rs1 : Reg) (imm : BitVec 12) (s : State) : Result :=
  s.storeX (s.addrPlus rs1 (imm12 imm)) 8 (s.getX rs2) 4

/-- `sh` (R159). -/
def execSh (rs2 rs1 : Reg) (imm : BitVec 12) (s : State) : Result :=
  s.storeX (s.addrPlus rs1 (imm12 imm)) 2 (s.getX rs2) 4

/-- `sw` (R160). -/
def execSw (rs2 rs1 : Reg) (imm : BitVec 12) (s : State) : Result :=
  s.storeX (s.addrPlus rs1 (imm12 imm)) 4 (s.getX rs2) 4

end Sys2Proof.Machine
end

