-- ==== Sys2Proof/Machine/MulDiv.lean ====
section
/-! DEFINITION. The meanings of the multiplication and division (R178 to R193), one definition each. -/

namespace Sys2Proof.Machine

open Sys2Proof

/-- `div` (R181). -/
def execDiv (rd rs1 rs2 : Reg) (s : State) : Result :=
  s.putX rd (ofNumber (divSigned s.cfg.divCorners s.cfg.xlen.bits
    (signedView s.cfg.xlen (s.getX rs1)) (signedView s.cfg.xlen (s.getX rs2)))) 4

/-- `divu` (R182). -/
def execDivu (rd rs1 rs2 : Reg) (s : State) : Result :=
  s.putX rd (ofNumber (divUnsigned s.cfg.divCorners
    (unsignedView s.cfg.xlen (s.getX rs1)) (unsignedView s.cfg.xlen (s.getX rs2)))) 4

/-- `divuw` (R183). -/
def execDivuw (rd rs1 rs2 : Reg) (s : State) : Result :=
  s.putX rd (sextW (ofNumber (divUnsigned s.cfg.divCorners
    (unsignedViewW (s.getX rs1)) (unsignedViewW (s.getX rs2))))) 4

/-- `divw` (R184). -/
def execDivw (rd rs1 rs2 : Reg) (s : State) : Result :=
  s.putX rd (sextW (ofNumber (divSigned s.cfg.divCorners 32
    (signedViewW (s.getX rs1)) (signedViewW (s.getX rs2))))) 4

/-- `mul` (R185). -/
def execMul (rd rs1 rs2 : Reg) (s : State) : Result :=
  s.putX rd (s.getX rs1 * s.getX rs2) 4

/-- `mulh` (R186). -/
def execMulh (rd rs1 rs2 : Reg) (s : State) : Result :=
  s.putX rd
    (highHalf s.cfg.xlen (signedView s.cfg.xlen (s.getX rs1) * signedView s.cfg.xlen (s.getX rs2))) 4

/-- `mulhsu` (R187). -/
def execMulhsu (rd rs1 rs2 : Reg) (s : State) : Result :=
  s.putX rd
    (highHalf s.cfg.xlen (signedView s.cfg.xlen (s.getX rs1) * unsignedView s.cfg.xlen (s.getX rs2))) 4

/-- `mulhu` (R188). -/
def execMulhu (rd rs1 rs2 : Reg) (s : State) : Result :=
  s.putX rd
    (highHalf s.cfg.xlen (unsignedView s.cfg.xlen (s.getX rs1) * unsignedView s.cfg.xlen (s.getX rs2))) 4

/-- `mulw` (R189). -/
def execMulw (rd rs1 rs2 : Reg) (s : State) : Result :=
  s.putX rd (sextW (s.getX rs1 * s.getX rs2)) 4

/-- `rem` (R190). -/
def execRem (rd rs1 rs2 : Reg) (s : State) : Result :=
  s.putX rd (ofNumber (remSigned s.cfg.divCorners s.cfg.xlen.bits
    (signedView s.cfg.xlen (s.getX rs1)) (signedView s.cfg.xlen (s.getX rs2)))) 4

/-- `remu` (R191). -/
def execRemu (rd rs1 rs2 : Reg) (s : State) : Result :=
  s.putX rd (ofNumber (remUnsigned s.cfg.divCorners
    (unsignedView s.cfg.xlen (s.getX rs1)) (unsignedView s.cfg.xlen (s.getX rs2)))) 4

/-- `remuw` (R192). -/
def execRemuw (rd rs1 rs2 : Reg) (s : State) : Result :=
  s.putX rd (sextW (ofNumber (remUnsigned s.cfg.divCorners
    (unsignedViewW (s.getX rs1)) (unsignedViewW (s.getX rs2))))) 4

/-- `remw` (R193). -/
def execRemw (rd rs1 rs2 : Reg) (s : State) : Result :=
  s.putX rd (sextW (ofNumber (remSigned s.cfg.divCorners 32
    (signedViewW (s.getX rs1)) (signedViewW (s.getX rs2))))) 4

end Sys2Proof.Machine
end

