-- ==== Sys2Proof/Machine/Single.lean ====
section
/-! DEFINITION. The meanings of the single-precision floating point (R231 to R260), one definition each. -/

namespace Sys2Proof.Machine

open Sys2Proof

/-- `fadd.s` (R231). -/
def execFaddS (rd rs1 rs2 : Reg) (rm : BitVec 3) (s : State) : Result :=
  s.fpS (.faddS rd rs1 rs2 rm) rd rm fun mode =>
    binary32.add (s.bitsS rs1) (s.bitsS rs2) mode

/-- `fclass.s` (R232). -/
def execFclassS (rd rs1 : Reg) (s : State) : Result :=
  s.fpX (.fclassS rd rs1) rd (BitVec.ofNat 64 (binary32.classify (s.bitsS rs1))) flagNone

/-- `fcvt.l.s` (R233). -/
def execFcvtLS (rd rs1 : Reg) (rm : BitVec 3) (s : State) : Result :=
  s.fpToX (.fcvtLS rd rs1 rm) rd rm intL fun mode => binary32.toInt (s.bitsS rs1) mode intL

/-- `fcvt.lu.s` (R234). -/
def execFcvtLuS (rd rs1 : Reg) (rm : BitVec 3) (s : State) : Result :=
  s.fpToX (.fcvtLuS rd rs1 rm) rd rm intLU fun mode => binary32.toInt (s.bitsS rs1) mode intLU

/-- `fcvt.s.l` (R235). -/
def execFcvtSL (rd rs1 : Reg) (rm : BitVec 3) (s : State) : Result :=
  s.fpS (.fcvtSL rd rs1 rm) rd rm fun mode => binary32.ofInt (intL.read (s.getX rs1)) mode

/-- `fcvt.s.lu` (R236). -/
def execFcvtSLu (rd rs1 : Reg) (rm : BitVec 3) (s : State) : Result :=
  s.fpS (.fcvtSLu rd rs1 rm) rd rm fun mode => binary32.ofInt (intLU.read (s.getX rs1)) mode

/-- `fcvt.s.w` (R237). -/
def execFcvtSW (rd rs1 : Reg) (rm : BitVec 3) (s : State) : Result :=
  s.fpS (.fcvtSW rd rs1 rm) rd rm fun mode => binary32.ofInt (intW.read (s.getX rs1)) mode

/-- `fcvt.s.wu` (R238). -/
def execFcvtSWu (rd rs1 : Reg) (rm : BitVec 3) (s : State) : Result :=
  s.fpS (.fcvtSWu rd rs1 rm) rd rm fun mode => binary32.ofInt (intWU.read (s.getX rs1)) mode

/-- `fcvt.w.s` (R239). -/
def execFcvtWS (rd rs1 : Reg) (rm : BitVec 3) (s : State) : Result :=
  s.fpToX (.fcvtWS rd rs1 rm) rd rm intW fun mode => binary32.toInt (s.bitsS rs1) mode intW

/-- `fcvt.wu.s` (R240). -/
def execFcvtWuS (rd rs1 : Reg) (rm : BitVec 3) (s : State) : Result :=
  s.fpToX (.fcvtWuS rd rs1 rm) rd rm intWU fun mode => binary32.toInt (s.bitsS rs1) mode intWU

/-- `fdiv.s` (R241). -/
def execFdivS (rd rs1 rs2 : Reg) (rm : BitVec 3) (s : State) : Result :=
  s.fpS (.fdivS rd rs1 rs2 rm) rd rm fun mode =>
    binary32.div (s.bitsS rs1) (s.bitsS rs2) mode

/-- `feq.s` (R242). -/
def execFeqS (rd rs1 rs2 : Reg) (s : State) : Result :=
  let r := binary32.eq (s.bitsS rs1) (s.bitsS rs2)
  s.fpX (.feqS rd rs1 rs2) rd (BitVec.ofNat 64 r.1) r.2

/-- `fle.s` (R243). -/
def execFleS (rd rs1 rs2 : Reg) (s : State) : Result :=
  let r := binary32.le (s.bitsS rs1) (s.bitsS rs2)
  s.fpX (.fleS rd rs1 rs2) rd (BitVec.ofNat 64 r.1) r.2

/-- `flt.s` (R244). -/
def execFltS (rd rs1 rs2 : Reg) (s : State) : Result :=
  let r := binary32.lt (s.bitsS rs1) (s.bitsS rs2)
  s.fpX (.fltS rd rs1 rs2) rd (BitVec.ofNat 64 r.1) r.2

/-- `flw` (R245). -/
def execFlw (rd rs1 : Reg) (imm : BitVec 12) (s : State) : Result :=
  s.fpLoadS (.flw rd rs1 imm) rd (s.addrPlus rs1 (imm12 imm)) 4

/-- `fmadd.s` (R246). -/
def execFmaddS (rd rs1 rs2 rs3 : Reg) (rm : BitVec 3) (s : State) : Result :=
  s.fpS (.fmaddS rd rs1 rs2 rs3 rm) rd rm fun mode =>
    binary32.fma (s.bitsS rs1) (s.bitsS rs2) (s.bitsS rs3) mode

/-- `fmax.s` (R247). -/
def execFmaxS (rd rs1 rs2 : Reg) (s : State) : Result :=
  s.fpExactS (.fmaxS rd rs1 rs2) rd (binary32.max (s.bitsS rs1) (s.bitsS rs2))

/-- `fmin.s` (R248). -/
def execFminS (rd rs1 rs2 : Reg) (s : State) : Result :=
  s.fpExactS (.fminS rd rs1 rs2) rd (binary32.min (s.bitsS rs1) (s.bitsS rs2))

/-- `fmsub.s` (R249). -/
def execFmsubS (rd rs1 rs2 rs3 : Reg) (rm : BitVec 3) (s : State) : Result :=
  s.fpS (.fmsubS rd rs1 rs2 rs3 rm) rd rm fun mode =>
    binary32.fma (s.bitsS rs1) (s.bitsS rs2) (binary32.neg (s.bitsS rs3)) mode

/-- `fmul.s` (R250). -/
def execFmulS (rd rs1 rs2 : Reg) (rm : BitVec 3) (s : State) : Result :=
  s.fpS (.fmulS rd rs1 rs2 rm) rd rm fun mode =>
    binary32.mul (s.bitsS rs1) (s.bitsS rs2) mode

/-- `fmv.w.x` (R251). -/
def execFmvWX (rd rs1 : Reg) (s : State) : Result :=
  s.fpExactS (.fmvWX rd rs1) rd (exactly ((s.getX rs1).setWidth 32).toNat)

/-- `fmv.x.w` (R252). -/
def execFmvXW (rd rs1 : Reg) (s : State) : Result :=
  s.fpX (.fmvXW rd rs1) rd (sextW (s.getF rs1)) flagNone

/-- `fnmadd.s` (R253). -/
def execFnmaddS (rd rs1 rs2 rs3 : Reg) (rm : BitVec 3) (s : State) : Result :=
  s.fpS (.fnmaddS rd rs1 rs2 rs3 rm) rd rm fun mode =>
    binary32.fma (binary32.neg (s.bitsS rs1)) (s.bitsS rs2) (binary32.neg (s.bitsS rs3)) mode

/-- `fnmsub.s` (R254). -/
def execFnmsubS (rd rs1 rs2 rs3 : Reg) (rm : BitVec 3) (s : State) : Result :=
  s.fpS (.fnmsubS rd rs1 rs2 rs3 rm) rd rm fun mode =>
    binary32.fma (binary32.neg (s.bitsS rs1)) (s.bitsS rs2) (s.bitsS rs3) mode

/-- `fsgnj.s` (R255). -/
def execFsgnjS (rd rs1 rs2 : Reg) (s : State) : Result :=
  s.fpExactS (.fsgnjS rd rs1 rs2) rd
    (exactly (binary32.inject (binary32.sign (s.bitsS rs2)) (s.bitsS rs1)))

/-- `fsgnjn.s` (R256). -/
def execFsgnjnS (rd rs1 rs2 : Reg) (s : State) : Result :=
  s.fpExactS (.fsgnjnS rd rs1 rs2) rd
    (exactly (binary32.inject (!binary32.sign (s.bitsS rs2)) (s.bitsS rs1)))

/-- `fsgnjx.s` (R257). -/
def execFsgnjxS (rd rs1 rs2 : Reg) (s : State) : Result :=
  s.fpExactS (.fsgnjxS rd rs1 rs2) rd
    (exactly (binary32.inject (binary32.sign (s.bitsS rs1) != binary32.sign (s.bitsS rs2)) (s.bitsS rs1)))

/-- `fsqrt.s` (R258). -/
def execFsqrtS (rd rs1 : Reg) (rm : BitVec 3) (s : State) : Result :=
  s.fpS (.fsqrtS rd rs1 rm) rd rm fun mode => binary32.sqrt (s.bitsS rs1) mode

/-- `fsub.s` (R259). -/
def execFsubS (rd rs1 rs2 : Reg) (rm : BitVec 3) (s : State) : Result :=
  s.fpS (.fsubS rd rs1 rs2 rm) rd rm fun mode =>
    binary32.sub (s.bitsS rs1) (s.bitsS rs2) mode

/-- `fsw` (R260). -/
def execFsw (rs2 rs1 : Reg) (imm : BitVec 12) (s : State) : Result :=
  s.fpStore (.fsw rs2 rs1 imm) rs2 (s.addrPlus rs1 (imm12 imm)) 4 4

end Sys2Proof.Machine
end

