-- ==== Sys2Proof/Machine/System.lean ====
section
/-! DEFINITION. The meanings of the CSR, fence, environment and privileged instructions (R161 to R177), one definition each. -/

namespace Sys2Proof.Machine

open Sys2Proof

/-- `csrrc` (R164). -/
def execCsrrc (rd : Reg) (csr : BitVec 12) (rs1 : Reg) (s : State) : Result :=
  s.csr (.csrrc rd csr rs1) csr rd (rs1 != 0) fun t => t &&& ~~~s.getX rs1

/-- `csrrci` (R165). -/
def execCsrrci (rd : Reg) (csr : BitVec 12) (zimm : BitVec 5) (s : State) : Result :=
  s.csr (.csrrci rd csr zimm) csr rd (zimm != 0) fun t => t &&& ~~~(zimm.setWidth 64)

/-- `csrrs` (R166). -/
def execCsrrs (rd : Reg) (csr : BitVec 12) (rs1 : Reg) (s : State) : Result :=
  s.csr (.csrrs rd csr rs1) csr rd (rs1 != 0) fun t => t ||| s.getX rs1

/-- `csrrsi` (R167). -/
def execCsrrsi (rd : Reg) (csr : BitVec 12) (zimm : BitVec 5) (s : State) : Result :=
  s.csr (.csrrsi rd csr zimm) csr rd (zimm != 0) fun t => t ||| zimm.setWidth 64

/-- `csrrw` (R168). -/
def execCsrrw (rd : Reg) (csr : BitVec 12) (rs1 : Reg) (s : State) : Result :=
  s.csr (.csrrw rd csr rs1) csr rd true fun _ => s.getX rs1

/-- `csrrwi` (R169). -/
def execCsrrwi (rd : Reg) (csr : BitVec 12) (zimm : BitVec 5) (s : State) : Result :=
  s.csr (.csrrwi rd csr zimm) csr rd true fun _ => zimm.setWidth 64

/-- `ebreak` (R170). It takes Breakpoint with trap value 0. -/
def execEbreak (s : State) : Result :=
  s.commit (.raise .breakpoint 0)

/-- `ecall` (R171). It takes the exception of the current mode. -/
def execEcall (s : State) : Result :=
  s.commit (.raise (ecallExc s.priv) 0)

/-- `fence` (R172). With one hart it orders nothing the machine can show (R73, R75); the ignored
fields do nothing (R85). -/
def execFence (_fm _pred _succ : BitVec 4) (_rs1 _rd : Reg) (s : State) : Result :=
  .next (s.retire 4)

/-- `fence.i` (R173). Every fetch from now on sees every store before (R79); the ignored fields do
nothing (R85). -/
def execFenceI (_imm : BitVec 12) (_rs1 _rd : Reg) (s : State) : Result :=
  .next ({ s with mem := s.mem.fenceCode }.retire 4)

/-- `mret` (R174). -/
def execMret (s : State) : Result :=
  s.privileged .mret (s.priv == .m) s.returnFromM.count

/-- `sfence.vma` (R175). Later translations it covers see every store before (R71). -/
def execSfenceVma (rs1 rs2 : Reg) (s : State) : Result :=
  s.privileged (.sfenceVma rs1 rs2) (s.priv == .m || (s.priv == .s && !s.mstatus.tvm))
    ((s.fenceVma (s.fenceOperand rs1) (s.fenceOperand rs2)).retire 4)

/-- `sret` (R176). -/
def execSret (s : State) : Result :=
  s.privileged .sret (s.priv == .m || (s.priv == .s && !s.mstatus.tsr)) s.returnFromS.count

/-- `wfi` (R177). It completes at once, one of the choices the rule gives (assumption log 17). -/
def execWfi (s : State) : Result :=
  s.privileged .wfi (s.priv == .m || (!(s.priv == .u && s.cfg.hasS) && !s.mstatus.tw)) (s.retire 4)

end Sys2Proof.Machine
end

