-- ==== Sys2Proof/Machine/Step.lean ====
section
/-! DEFINITION. One step of the machine (R392), and a state with a given instruction next. -/

namespace Sys2Proof.Machine

open Sys2Proof

/-- Steps 5 to 8 of R392 for a fetched word: decode, execute, trap or retire. -/
def State.runWord (s : State) (w : BitVec 32) : Host.Outcome State Fault Refusal :=
  match decode s.cfg w with
  | .instr i => exec i s
  | _ => .next (s.takeException .illegalInstruction (s.illegalTval w))

/-- Steps 3 to 8 of R392: an interrupt, or the instruction at the pc. -/
def State.runNext (s : State) : Host.Outcome State Fault Refusal :=
  match s.pendingInterrupt with
  | some i => .next (s.takeInterrupt i)
  | none =>
    match s.fetch with
    | .ok (s', w) => s'.runWord w
    | .raise e tval => .next (s.takeException e tval)
    | .refuse _ => .fault (.ioFetch s.pc)

/-- `Step()` (R392). -/
def step (s : State) : Host.Outcome State Fault Refusal := s.beginStep.runNext

/-- The state with the instruction of `nbits` bits `w`, and zeros up to 4 bytes, where the next step
fetches (assumption log 28). -/
def State.withFetchWord (s : State) (nbits w : Nat) : State :=
  let n := w % 2 ^ nbits
  let lo := s.fetchAddress s.pc
  let hi := s.fetchAddress (s.pcPlus 2)
  { s with mem := (s.mem.placeParcel lo (n % 2 ^ 16)).placeParcel hi (n / 2 ^ 16 % 2 ^ 16) }

end Sys2Proof.Machine
end

