-- ==== Sys2Proof/Safety.lean ====
section
/-! DEFINITION. The vocabulary of statements about the machine: registers as numbers, what an instruction
leaves unchanged, an access the checks allow, a trap, and the invariant of the machine's states. -/

namespace Sys2Proof

/-! ## Classes of instructions -/

/-- The floating-point instructions: those `FPCheck` begins (R221). -/
def Instr.usesFp (i : Instr) : Bool :=
  i.need == .extF || i.need == .extD || i.need == .extCF || i.need == .extCD

/-- The rounding-mode field of an instruction that has one (R222). -/
def Instr.rm? : Instr → Option (BitVec 3)
  | .faddS _ _ _ rm | .fsubS _ _ _ rm | .fmulS _ _ _ rm | .fdivS _ _ _ rm | .fsqrtS _ _ rm
  | .fmaddS _ _ _ _ rm | .fmsubS _ _ _ _ rm | .fnmsubS _ _ _ _ rm | .fnmaddS _ _ _ _ rm
  | .fcvtWS _ _ rm | .fcvtWuS _ _ rm | .fcvtLS _ _ rm | .fcvtLuS _ _ rm
  | .fcvtSW _ _ rm | .fcvtSWu _ _ rm | .fcvtSL _ _ rm | .fcvtSLu _ _ rm
  | .faddD _ _ _ rm | .fsubD _ _ _ rm | .fmulD _ _ _ rm | .fdivD _ _ _ rm | .fsqrtD _ _ rm
  | .fmaddD _ _ _ _ rm | .fmsubD _ _ _ _ rm | .fnmsubD _ _ _ _ rm | .fnmaddD _ _ _ _ rm
  | .fcvtWD _ _ rm | .fcvtWuD _ _ rm | .fcvtLD _ _ rm | .fcvtLuD _ _ rm
  | .fcvtDW _ _ rm | .fcvtDWu _ _ rm | .fcvtDL _ _ rm | .fcvtDLu _ _ rm
  | .fcvtSD _ _ rm | .fcvtDS _ _ rm => some rm
  | _ => none

/-- The instructions that write memory as their effect (R65, R194, R196). -/
def Instr.storesMemory : Instr → Bool
  | .sb _ _ _ | .sh _ _ _ | .sw _ _ _ | .sd _ _ _ | .fsw _ _ _ | .fsd _ _ _
  | .scW _ _ _ _ _ | .amoswapW _ _ _ _ _ | .amoaddW _ _ _ _ _ | .amoxorW _ _ _ _ _
  | .amoandW _ _ _ _ _ | .amoorW _ _ _ _ _ | .amominW _ _ _ _ _ | .amomaxW _ _ _ _ _
  | .amominuW _ _ _ _ _ | .amomaxuW _ _ _ _ _
  | .scD _ _ _ _ _ | .amoswapD _ _ _ _ _ | .amoaddD _ _ _ _ _ | .amoxorD _ _ _ _ _
  | .amoandD _ _ _ _ _ | .amoorD _ _ _ _ _ | .amominD _ _ _ _ _ | .amomaxD _ _ _ _ _
  | .amominuD _ _ _ _ _ | .amomaxuD _ _ _ _ _
  | .cSw _ _ _ | .cSd _ _ _ | .cSwsp _ _ | .cSdsp _ _
  | .cFsw _ _ _ | .cFsd _ _ _ | .cFswsp _ _ | .cFsdsp _ _ => true
  | _ => false

end Sys2Proof

namespace Sys2Proof.Machine

open Sys2Proof

/-! ## Data accesses -/

/-- A data access an instruction makes: who asks, the base register, the offset, the bytes (R56, R59). -/
structure DataAccess where
  op : MemOp
  base : Reg
  offset : Int
  size : Nat
  deriving DecidableEq, Repr

/-- The data access of an instruction that makes one (R59): the loads, stores and atomics, the
floating-point and compressed ones included. -/
def accessOf : Instr → Option DataAccess
  | .lb _ b i | .lbu _ b i => some ⟨.load, b, i.toInt, 1⟩
  | .lh _ b i | .lhu _ b i => some ⟨.load, b, i.toInt, 2⟩
  | .lw _ b i | .lwu _ b i | .flw _ b i => some ⟨.load, b, i.toInt, 4⟩
  | .ld _ b i | .fld _ b i => some ⟨.load, b, i.toInt, 8⟩
  | .sb _ b i => some ⟨.store, b, i.toInt, 1⟩
  | .sh _ b i => some ⟨.store, b, i.toInt, 2⟩
  | .sw _ b i | .fsw _ b i => some ⟨.store, b, i.toInt, 4⟩
  | .sd _ b i | .fsd _ b i => some ⟨.store, b, i.toInt, 8⟩
  | .cLw _ b i | .cFlw _ b i => some ⟨.load, b.reg, 4 * i.toNat, 4⟩
  | .cLd _ b i | .cFld _ b i => some ⟨.load, b.reg, 8 * i.toNat, 8⟩
  | .cLwsp _ i | .cFlwsp _ i => some ⟨.load, 2, 4 * i.toNat, 4⟩
  | .cLdsp _ i | .cFldsp _ i => some ⟨.load, 2, 8 * i.toNat, 8⟩
  | .cSw _ b i | .cFsw _ b i => some ⟨.store, b.reg, 4 * i.toNat, 4⟩
  | .cSd _ b i | .cFsd _ b i => some ⟨.store, b.reg, 8 * i.toNat, 8⟩
  | .cSwsp _ i | .cFswsp _ i => some ⟨.store, 2, 4 * i.toNat, 4⟩
  | .cSdsp _ i | .cFsdsp _ i => some ⟨.store, 2, 8 * i.toNat, 8⟩
  | .lrW _ b _ _ => some ⟨.lr, b, 0, 4⟩
  | .lrD _ b _ _ => some ⟨.lr, b, 0, 8⟩
  | .scW _ _ b _ _ => some ⟨.sc, b, 0, 4⟩
  | .scD _ _ b _ _ => some ⟨.sc, b, 0, 8⟩
  | .amoswapW _ _ b _ _ | .amoaddW _ _ b _ _ | .amoxorW _ _ b _ _ | .amoandW _ _ b _ _
  | .amoorW _ _ b _ _ | .amominW _ _ b _ _ | .amomaxW _ _ b _ _ | .amominuW _ _ b _ _
  | .amomaxuW _ _ b _ _ => some ⟨.amo, b, 0, 4⟩
  | .amoswapD _ _ b _ _ | .amoaddD _ _ b _ _ | .amoxorD _ _ b _ _ | .amoandD _ _ b _ _
  | .amoorD _ _ b _ _ | .amominD _ _ b _ _ | .amomaxD _ _ b _ _ | .amominuD _ _ b _ _
  | .amomaxuD _ _ b _ _ => some ⟨.amo, b, 0, 8⟩
  | _ => none

/-! ## Numbers -/

/-- 2^XLEN. -/
def State.modulus (s : State) : Nat := 2 ^ s.cfg.xlen.bits

/-- `x[r]` as an unsigned number. -/
def State.ux (s : State) (r : Reg) : Nat := (s.getX r).toNat

/-- `x[r]` as a two's complement number of XLEN bits. -/
def State.sx (s : State) (r : Reg) : Int :=
  if 2 * s.ux r < s.modulus then (s.ux r : Int) else (s.ux r : Int) - s.modulus

/-- A number modulo 2^XLEN. -/
def State.wrap (s : State) (v : Int) : Nat := (v % (s.modulus : Int)).toNat

/-- The two's complement number in the low 32 bits of a number (`sext(v[31:0])`). -/
def low32 (v : Int) : Int := v.bmod (2 ^ 32)

/-- The two's complement number in the low `n` bytes of a number. -/
def signedBytes (n v : Nat) : Int := (v : Int).bmod (256 ^ n)

/-- The little-endian number in `n` bytes of memory from `a` (R58). -/
def State.bytesAt (s : State) (a : Nat) : (n : Nat) → Nat
  | 0 => 0
  | n + 1 => s.bytesAt a n + (s.mem.read (a + n)).toNat * 256 ^ n

/-- The little-endian number in the first `n` of a family of bytes (R58). -/
def State.bytesOf (s : State) (p : Nat → Nat) : (n : Nat) → Nat
  | 0 => 0
  | n + 1 => s.bytesOf p n + (s.mem.read (p n)).toNat * 256 ^ n

/-- The address `x[base] + offset` of a data access (R56). -/
def State.dataAddress (s : State) (base : Reg) (offset : Int) : Nat := s.wrap (s.ux base + offset)

/-- The address of an instruction's data access. -/
def State.accessAddress (s : State) (d : DataAccess) : Nat := s.dataAddress d.base d.offset

/-! ## Frames: the state with what an instruction may write blotted out -/

/-- The state without what every instruction writes: the pc, `minstret`, and the kept memory. -/
def State.still (s : State) : State := { s with pc := 0, minstret := 0, beforeFetch := none }

/-- The state without its integer registers. -/
def State.besideX (s : State) : State := { s.still with x := Vector.replicate 32 0 }

/-- The state without its memory and the record of old bytes. -/
def State.besideMem (s : State) : State :=
  { s.still with mem := { cells := [], staleCode := [], stalePte := [] } }

/-- The state without its reservation. -/
def State.besideResv (s : State) : State := { s with resv := none }

/-- The state without the flags and FS. -/
def State.besideFlags (s : State) : State :=
  { s with fflags := 0, mstatus := { s.mstatus with fs := 0 } }

/-- The state without its floating-point registers, the flags and FS. -/
def State.besideF (s : State) : State := { s.still.besideFlags with f := Vector.replicate 32 0 }

/-- The state without what a trap into M-mode writes (R400). -/
def State.besideTrapM (s : State) : State :=
  { s with
    pc := 0, priv := .m, resv := none, mepc := 0, mcause := 0, mtval := 0
    mstatus := { s.mstatus with mie := false, mpie := false, mpp := .m } }

/-- The state without what a trap into S-mode writes (R400). -/
def State.besideTrapS (s : State) : State :=
  { s with
    pc := 0, priv := .m, resv := none, sepc := 0, scause := 0, stval := 0
    mstatus := { s.mstatus with sie := false, spie := false, spp := false } }

/-- Every byte of memory reads as before. -/
def SameBytes (s t : State) : Prop := ∀ a, t.mem.read a = s.mem.read a

/-- Every integer register but `rd` reads as before. -/
def SameX (s t : State) (rd : Reg) : Prop := ∀ r, r ≠ rd → t.ux r = s.ux r

/-- The instruction retired: the pc is `pc` modulo 2^XLEN, and `minstret` counted it (R392 step 8). -/
structure Retired (s t : State) (pc : Int) : Prop where
  pc : t.pc.toNat = s.wrap pc
  counted : t.minstret = s.minstret + 1

/-- `x[rd]` is `v` modulo 2^XLEN, or 0 for x0, and nothing else changed but the pc, which is `pc`, and
`minstret`. With `rd` = x0 it says that no register changed. -/
structure WroteX (s t : State) (rd : Reg) (v pc : Int) : Prop extends Retired s t pc where
  value : t.ux rd = if rd = 0 then 0 else s.wrap v
  others : SameX s t rd
  bytes : SameBytes s t
  beside : t.besideX = s.besideX

/-- The instruction completes with `x[rd]` = `v` modulo 2^XLEN and the pc `len` bytes on (R23). -/
def Computes (i : Instr) (s : State) (rd : Reg) (v : Int) (len : Nat) : Prop :=
  ∃ t, exec i s = .next t ∧ WroteX s t rd v (s.pc.toNat + len)

/-- The instruction completes with no register changed and the pc at `target`. -/
def GoesTo (i : Instr) (s : State) (target : Int) : Prop :=
  ∃ t, exec i s = .next t ∧ WroteX s t 0 0 target

/-- `x[rd]` is `v`, the flags `fl` accrued (FS to 3 where there is one), nothing else changed (R221). -/
structure WroteXFlags (s t : State) (rd : Reg) (v : Int) (fl : FpFlags) : Prop
    extends Retired s t (s.pc.toNat + 4) where
  value : t.ux rd = if rd = 0 then 0 else s.wrap v
  others : SameX s t rd
  flags : t.fflags = s.fflags ||| fl
  dirty : t.mstatus.fs = if fl = 0 then s.mstatus.fs else 3
  bytes : SameBytes s t
  beside : t.besideX.besideFlags = s.besideX.besideFlags

/-- `f[rd]` is `bits`, the flags `fl` accrued, FS is 3, nothing else changed (R221). -/
structure WroteF (s t : State) (rd : Reg) (bits : Nat) (fl : FpFlags) (len : Nat) : Prop
    extends Retired s t (s.pc.toNat + len) where
  value : (t.getF rd).toNat = bits
  others : ∀ r, r ≠ rd → t.getF r = s.getF r
  flags : t.fflags = s.fflags ||| fl
  dirty : t.mstatus.fs = 3
  ints : ∀ r, t.ux r = s.ux r
  bytes : SameBytes s t
  beside : t.besideF = s.besideF

/-- A single-precision number's bits in a register: NaN-boxed where FLEN = 64 (R27). -/
def State.boxed (s : State) (bits : Nat) : Nat :=
  if s.cfg.flen64 then 0xFFFFFFFF * 2 ^ 32 + bits else bits

/-- The instruction completes with a single-precision result and its flags. -/
def ComputesS (i : Instr) (s : State) (rd : Reg) (r : FpResult) : Prop :=
  ∃ t, exec i s = .next t ∧ WroteF s t rd (s.boxed (r.1 % 2 ^ 32)) r.2 4

/-- The instruction completes with a double-precision result and its flags. -/
def ComputesD (i : Instr) (s : State) (rd : Reg) (r : FpResult) : Prop :=
  ∃ t, exec i s = .next t ∧ WroteF s t rd (r.1 % 2 ^ 64) r.2 4

/-- The instruction completes with an integer result and flags. -/
def ComputesXF (i : Instr) (s : State) (rd : Reg) (v : Int) (fl : FpFlags) : Prop :=
  ∃ t, exec i s = .next t ∧ WroteXFlags s t rd v fl

/-- The `n` bytes from `a` hold the low bytes of `v`, and every other byte reads as before (R65). -/
structure StoredBytes (s t : State) (a n v : Nat) : Prop where
  stored : ∀ k, k < n → t.mem.read (a + k) = BitVec.ofNat 8 (v / 256 ^ k)
  outside : ∀ b, (b < a ∨ a + n ≤ b) → t.mem.read b = s.mem.read b

/-- The instruction completes with `n` bytes of `v` stored at `a` and nothing else changed. -/
def Stores (i : Instr) (s : State) (a n v len : Nat) : Prop :=
  ∃ t, exec i s = .next t ∧ StoredBytes s t a n v ∧ Retired s t (s.pc.toNat + len) ∧
    (∀ r, t.ux r = s.ux r) ∧ t.besideMem = s.besideMem

/-- The instruction completes with `n` bytes of `v` stored at the addresses `p 0`, `p 1`, ... and nothing else
changed (R61, `bytewise`). -/
def StoresBytes (i : Instr) (s : State) (p : Nat → Nat) (n v len : Nat) : Prop :=
  ∃ t, exec i s = .next t ∧ (∀ k, k < n → t.mem.read (p k) = BitVec.ofNat 8 (v / 256 ^ k)) ∧
    (∀ b, (∀ k, k < n → b ≠ p k) → t.mem.read b = s.mem.read b) ∧ Retired s t (s.pc.toNat + len) ∧
    (∀ r, t.ux r = s.ux r) ∧ t.besideMem = s.besideMem

/-- An AMO's next state (R194): the result in `x[rd]`, the number stored, nothing else changed. -/
structure AmoDone (s t : State) (rd : Reg) (a n : Nat) (result : Int) (stored : Nat) : Prop
    extends Retired s t (s.pc.toNat + 4) where
  value : t.ux rd = if rd = 0 then 0 else s.wrap result
  others : SameX s t rd
  memory : StoredBytes s t a n stored
  beside : t.besideX.besideMem = s.besideX.besideMem

/-- The AMO completes (R194). -/
def Amo (i : Instr) (s : State) (rd : Reg) (a n : Nat) (result : Int) (stored : Nat) : Prop :=
  ∃ t, exec i s = .next t ∧ AmoDone s t rd a n result stored

/-- The instruction completes with `x[rd]` = `v`, the reservation `resv`, and nothing else changed but
memory as `memory` says. -/
structure ReservationDone (s t : State) (rd : Reg) (v : Int) (resv : Option Reservation) : Prop
    extends Retired s t (s.pc.toNat + 4) where
  value : t.ux rd = if rd = 0 then 0 else s.wrap v
  others : SameX s t rd
  resv : t.resv = resv
  beside : t.besideX.besideMem.besideResv = s.besideX.besideMem.besideResv

/-- A load-reserve completes (R195): no byte of memory changes. -/
def LoadsReserved (i : Instr) (s : State) (rd : Reg) (a n : Nat) (v : Int) : Prop :=
  ∃ t, exec i s = .next t ∧ ReservationDone s t rd v (some { addr := a, size := n }) ∧ t.mem = s.mem

/-- A store-conditional completes with its store made and 0 in `x[rd]` (R196). -/
def ScStores (i : Instr) (s : State) (rd : Reg) (a n v : Nat) : Prop :=
  ∃ t, exec i s = .next t ∧ ReservationDone s t rd 0 none ∧ StoredBytes s t a n v

/-- A store-conditional completes with no store and 1 in `x[rd]` (R196). -/
def ScFails (i : Instr) (s : State) (rd : Reg) : Prop :=
  ∃ t, exec i s = .next t ∧ ReservationDone s t rd 1 none ∧ t.mem = s.mem

/-- The next state of a CSR instruction (R161): the old value in `x[rd]`, and, where it writes, what the
write of `new` leaves; a write to `minstret` is not counted on top (R35). -/
structure CsrDone (s t : State) (r : Csr) (rd : Reg) (new : Option Word) : Prop where
  pc : t.pc.toNat = s.wrap (s.pc.toNat + 4)
  old : t.ux rd = if rd = 0 then 0 else s.wrap (s.csrRead r).toNat
  others : SameX s t rd
  bytes : SameBytes s t
  unwritten : new = none → t.besideX = s.besideX ∧ t.minstret = s.minstret + 1
  written : ∀ v, new = some v → t.besideX = (s.csrWrite r v).besideX ∧
    t.minstret = if r.isInstret then (s.csrWrite r v).minstret else s.minstret + 1

/-- The CSR instruction completes. -/
def CsrCompletes (i : Instr) (s : State) (r : Csr) (rd : Reg) (new : Option Word) : Prop :=
  ∃ t, exec i s = .next t ∧ CsrDone s t r rd new

/-- The state without the record of old page-table values. -/
def State.besideOld (s : State) : State :=
  { s.still with mem := s.mem.fencePte, staleSatp := [] }

/-- A branch completes: to `target`, if it is aligned, where it is taken, else to the next instruction
(R140). -/
def Branches (i : Instr) (s : State) (taken : Prop) (target : Int) : Prop :=
  (taken → s.wrap target % s.cfg.ialignBytes = 0 → GoesTo i s target) ∧
    (¬ taken → GoesTo i s (s.pc.toNat + 4))

/-! ## Page tables -/

/-- The access is not translated (R68), whatever `satp` it may still use (R71). -/
def Untranslated (s : State) (acc : Access) : Prop :=
  s.cfg.hasS = false ∨ s.effPriv acc = .m ∨ (s.staleSatp = [] ∧ satpScheme s.cfg s.satp = none)

/-- `satp.MODE` names the scheme (R51, R69). -/
def State.satpNames (s : State) : Scheme → Prop
  | .sv32 => s.cfg.xlen = .rv32 ∧ s.satp.toNat / 2 ^ 31 % 2 = 1
  | .sv39 => s.cfg.xlen = .rv64 ∧ s.satp.toNat / 2 ^ 60 = 8
  | .sv48 => s.cfg.xlen = .rv64 ∧ s.satp.toNat / 2 ^ 60 = 9

/-- The address is one the scheme translates (R70 step 0). -/
def Scheme.holds : Scheme → Word → Prop
  | .sv32, _ => True
  | .sv39, v => v.toNat < 2 ^ 38 ∨ 2 ^ 64 - 2 ^ 38 ≤ v.toNat
  | .sv48, v => v.toNat < 2 ^ 47 ∨ 2 ^ 64 - 2 ^ 47 ≤ v.toNat

/-- Translation by the scheme is in force for the access (R63, R68), with nothing stale (R71). -/
structure PagingOn (s : State) (acc : Access) (sch : Scheme) : Prop where
  supervisor : s.cfg.hasS = true
  lower : s.effPriv acc ≠ .m
  mode : s.satpNames sch
  fresh : s.staleSatp = [] ∧ s.mem.stalePte = []

/-- The address of the root page table (R70 step 1). -/
def State.rootTable (s : State) : Scheme → Nat
  | .sv32 => s.satp.toNat % 2 ^ 22 * 4096
  | .sv39 | .sv48 => s.satp.toNat % 2 ^ 44 * 4096

/-- The address of the entry for `v` at a level, in the table at `table` (R70 step 2). -/
def Scheme.entry (sch : Scheme) (v : Word) (table level : Nat) : Nat :=
  table + v.toNat / 2 ^ (12 + sch.vpnBits * level) % 2 ^ sch.vpnBits * sch.pteSize

/-- The entry's number (R58, R70 step 2). -/
def State.entryAt (s : State) (sch : Scheme) (v : Word) (table level : Nat) : Nat :=
  s.bytesAt (sch.entry v table level) sch.pteSize

/-- The address of the page or table an entry names (R69). -/
def Scheme.target (sch : Scheme) (pte : Nat) : Nat := pte / 1024 % 2 ^ sch.ppnBits * 4096

/-- The bytes of an entry at an address lie in main memory with an attribute (R57). -/
def PteIn (s : State) (p : Region → Bool) (a size : Nat) : Prop :=
  ∀ k, k < size → ∃ r, s.cfg.regionAt (a + k) = some r ∧ p r = true

/-- Main memory a walk may read (R70 step 2). -/
def PteReadable (s : State) (a size : Nat) : Prop := PteIn s (fun r => r.readable && !r.io) a size

/-- The entry is invalid or reserved (R70 step 3), with the bits V 0, R 1, W 2, X 3. -/
def PteInvalid (pte : Nat) : Prop :=
  pte.testBit 0 = false ∨ (pte.testBit 1 = false ∧ pte.testBit 2 = true)

/-- V is set and R, W, X are clear: the entry points to the next table (R70 step 4). -/
def PtePointer (pte : Nat) : Prop := pte % 16 = 1

/-- The entry is valid and no pointer: a leaf (R70 steps 3 and 4). -/
def PteLeaf (pte : Nat) : Prop := ¬ PteInvalid pte ∧ ¬ PtePointer pte

/-- The walk for `v` from level `i` with the table at `table` comes to the leaf `pte`, read at `a` at level
`j` (R70 steps 2 to 4). -/
inductive ReachesLeaf (s : State) (sch : Scheme) (v : Word) : (i table j a pte : Nat) → Prop
  | here (i table : Nat) : PteReadable s (sch.entry v table i) sch.pteSize →
      PteLeaf (s.entryAt sch v table i) →
      ReachesLeaf s sch v i table i (sch.entry v table i) (s.entryAt sch v table i)
  | next (i table j a pte : Nat) : PteReadable s (sch.entry v table (i + 1)) sch.pteSize →
      PtePointer (s.entryAt sch v table (i + 1)) →
      ReachesLeaf s sch v i (sch.target (s.entryAt sch v table (i + 1))) j a pte →
      ReachesLeaf s sch v (i + 1) table j a pte

/-- The walk comes to an entry that is invalid, or to a pointer at level 0 (R70 steps 3 and 4). -/
inductive ReachesInvalid (s : State) (sch : Scheme) (v : Word) : (i table : Nat) → Prop
  | here (i table : Nat) : PteReadable s (sch.entry v table i) sch.pteSize →
      PteInvalid (s.entryAt sch v table i) → ReachesInvalid s sch v i table
  | deep (table : Nat) : PteReadable s (sch.entry v table 0) sch.pteSize →
      PtePointer (s.entryAt sch v table 0) → ReachesInvalid s sch v 0 table
  | next (i table : Nat) : PteReadable s (sch.entry v table (i + 1)) sch.pteSize →
      PtePointer (s.entryAt sch v table (i + 1)) →
      ReachesInvalid s sch v i (sch.target (s.entryAt sch v table (i + 1))) →
      ReachesInvalid s sch v (i + 1) table

/-- The walk comes to an entry outside readable main memory (R70 step 2). -/
inductive ReachesUnreadable (s : State) (sch : Scheme) (v : Word) : (i table : Nat) → Prop
  | here (i table : Nat) : ¬ PteReadable s (sch.entry v table i) sch.pteSize →
      ReachesUnreadable s sch v i table
  | next (i table : Nat) : PteReadable s (sch.entry v table (i + 1)) sch.pteSize →
      PtePointer (s.entryAt sch v table (i + 1)) →
      ReachesUnreadable s sch v i (sch.target (s.entryAt sch v table (i + 1))) →
      ReachesUnreadable s sch v (i + 1) table

/-- A leaf that allows the access in the mode (R70 step 5), with the bits R 1, W 2, X 3, U 4. -/
def LeafPermits (s : State) (acc : Access) (p : Priv) (pte : Nat) : Prop :=
  (match acc with
   | .fetch => pte.testBit 3 = true
   | .load => pte.testBit 1 = true ∨ (s.mstatus.mxr = true ∧ pte.testBit 3 = true)
   | .store => pte.testBit 2 = true) ∧
  (match p with
   | .u => pte.testBit 4 = true
   | .s => pte.testBit 4 = false ∨ (s.mstatus.sum = true ∧ acc ≠ .fetch)
   | .m => True)

/-- The leaf found at level `j` maps the address: it permits the access, and its superpage is aligned (R70
steps 5 and 6). -/
def LeafMaps (s : State) (acc : Access) (sch : Scheme) (j pte : Nat) : Prop :=
  LeafPermits s acc (s.effPriv acc) pte ∧ pte / 1024 % 2 ^ (sch.vpnBits * j) = 0

/-- A is set, and D for a store (R70 step 7), the bits 6 and 7. -/
def LeafUsed (acc : Access) (pte : Nat) : Prop :=
  pte.testBit 6 = true ∧ (acc = .store → pte.testBit 7 = true)

/-- The physical address under a leaf at level `j` (R70 step 8): the frame, and the bits of the address
below it. -/
def Scheme.under (sch : Scheme) (j pte : Nat) (v : Word) : Nat :=
  sch.target pte + v.toNat % 2 ^ (12 + sch.vpnBits * j)

/-- The page tables map the address to `p` for the access, with nothing left to update (R68 to R70). -/
def Maps (s : State) (acc : Access) (v : Word) (p : Nat) : Prop :=
  ∃ sch j a pte, PagingOn s acc sch ∧ sch.holds v ∧
    ReachesLeaf s sch v sch.top (s.rootTable sch) j a pte ∧ LeafMaps s acc sch j pte ∧
    LeafUsed acc pte ∧ p = sch.under j pte v

/-- The page tables do not map the address for the access (R70 steps 0 and 3 to 7). -/
def Unmapped (s : State) (acc : Access) (v : Word) : Prop :=
  ∃ sch, PagingOn s acc sch ∧
    (¬ sch.holds v ∨ (sch.holds v ∧ ReachesInvalid s sch v sch.top (s.rootTable sch)) ∨
      (sch.holds v ∧ ∃ j a pte, ReachesLeaf s sch v sch.top (s.rootTable sch) j a pte ∧
        (¬ LeafMaps s acc sch j pte ∨ (¬ LeafUsed acc pte ∧ s.cfg.pteAdUpdate = .fault))))

/-- The hardware's update of a leaf at `a` (R70 step 7): A, and D for a store, in its lowest byte. -/
structure UpdatedAd (s t : State) (acc : Access) (a : Nat) : Prop where
  bits : t.mem.read a = s.mem.read a ||| (if acc = .store then 0xC0 else 0x40)
  others : ∀ b, b ≠ a → t.mem.read b = s.mem.read b
  beside : { t with mem := s.mem, beforeFetch := s.beforeFetch } = s

/-! ## Accesses every check allows -/

/-- The virtual address `a` of the access is `p` in physical memory: itself where it is not translated
(R68), or what the page tables map it to. -/
def Finds (s : State) (acc : Access) (a p : Nat) : Prop :=
  (Untranslated s acc ∧ p = a) ∨ Maps s acc (BitVec.ofNat 64 a) p

/-- The access is aligned, and all its bytes, from `p` in physical memory, lie in main memory with the
attributes it needs (R57). -/
structure Reaches (s : State) (op : MemOp) (a n p : Nat) : Prop where
  found : Finds s op.access a p
  aligned : a % n = 0
  allowed : ∀ k, k < n → ∃ r, s.cfg.regionAt (p + k) = some r ∧ op.allowed r = true ∧ r.io = false

/-- The access is aligned and found at `p`, and some byte lacks an attribute it needs (R57); or an entry of
its page-table walk lies outside readable main memory (R70 step 2). -/
def Forbidden (s : State) (op : MemOp) (a n : Nat) : Prop :=
  a % n = 0 ∧
    ((∃ p, Finds s op.access a p ∧
        ∃ k, k < n ∧ ∀ r, s.cfg.regionAt (p + k) = some r → op.allowed r = false) ∨
      ∃ sch, PagingOn s op.access sch ∧ sch.holds (BitVec.ofNat 64 a) ∧
        ReachesUnreadable s sch (BitVec.ofNat 64 a) sch.top (s.rootTable sch))

/-- The access is aligned and found at `p`, every byte has the attributes it needs, and `b` is the first that
lies in an `io` region (R57). -/
structure TouchesIo (s : State) (op : MemOp) (a n p b : Nat) : Prop where
  found : Finds s op.access a p
  aligned : a % n = 0
  allowed : ∀ k, k < n → ∃ r, s.cfg.regionAt (p + k) = some r ∧ op.allowed r = true
  first : p ≤ b ∧ b < p + n ∧ (∃ r, s.cfg.regionAt b = some r ∧ r.io = true) ∧
    ∀ c, p ≤ c → c < b → ∃ r, s.cfg.regionAt c = some r ∧ r.io = false

/-- A parcel at the virtual address `a` that a fetch reads from memory at `p` as it is: executable main
memory (R57), and no store there waits for a `fence.i` (R79). -/
structure ParcelAt (s : State) (a p : Nat) : Prop where
  found : Finds s .fetch a p
  allowed : ∀ k, k < 2 → ∃ r, s.cfg.regionAt (p + k) = some r ∧ r.executable = true ∧ r.io = false
  fresh : ∀ before ∈ s.mem.staleCode, ∀ b ∈ before, b.1 ≠ p ∧ b.1 ≠ p + 1

/-- The word whose parcels lie at `p` and, where the first says that there are two (R80), at `q` (R66). -/
def State.wordAt (s : State) (p q : Nat) : BitVec 32 :=
  let lo := BitVec.ofNat 16 (s.bytesAt p 2)
  if isLong lo then BitVec.ofNat 16 (s.bytesAt q 2) ++ lo else lo.setWidth 32

/-- A fetch at the pc reads its parcels from memory at `p` and `q` as they are (R66). -/
structure FetchAt (s : State) (p q : Nat) : Prop where
  first : ParcelAt s s.pc.toNat p
  second : isLong (BitVec.ofNat 16 (s.bytesAt p 2)) = true → ParcelAt s (s.pcPlus 2).toNat q

/-- Floating-point arithmetic is on, and the rounding-mode field names a mode (R221, R222). -/
def FpReady (s : State) (rm : BitVec 3) (mode : Rounding) : Prop :=
  s.mstatus.fs ≠ 0 ∧ s.rounding rm = some mode

/-! ## Traps -/

/-- The pc is a pc the machine can have (R24), and the fetch has changed nothing. -/
structure AtInstruction (s : State) : Prop where
  aligned : s.pc.toNat % s.cfg.ialignBytes = 0
  sized : s.pc.toNat < s.modulus
  fetched : s.beforeFetch = none

/-- The handler's address in a trap vector (R43). -/
def State.handler (s : State) (tvec : Word) (interrupt : Bool) (code : Nat) : Nat :=
  s.wrap (tvec.toNat / 4 * 4 + (if interrupt = true ∧ tvec.toNat % 4 = 1 then 4 * code else 0) : Nat)

/-- The cause a trap leaves (R400). -/
def State.causeNumber (s : State) (interrupt : Bool) (code : Nat) : Nat :=
  (if interrupt then s.modulus / 2 else 0) + code

/-- A trap into M-mode (R400). -/
structure TrappedM (s t : State) (interrupt : Bool) (code tval : Nat) : Prop where
  epc : t.mepc = s.pc
  cause : t.mcause.toNat = s.causeNumber interrupt code
  tval : t.mtval.toNat = tval
  mpie : t.mstatus.mpie = s.mstatus.mie
  mie : t.mstatus.mie = false
  mpp : t.mstatus.mpp = s.priv
  priv : t.priv = .m
  resv : t.resv = none
  pc : t.pc.toNat = s.handler s.mtvec interrupt code
  ints : ∀ r, t.ux r = s.ux r
  bytes : SameBytes s t
  beside : t.besideTrapM = s.besideTrapM

/-- A trap into S-mode (R400). -/
structure TrappedS (s t : State) (interrupt : Bool) (code tval : Nat) : Prop where
  epc : t.sepc = s.pc
  cause : t.scause.toNat = s.causeNumber interrupt code
  tval : t.stval.toNat = tval
  spie : t.mstatus.spie = s.mstatus.sie
  sie : t.mstatus.sie = false
  spp : t.mstatus.spp = (s.priv == .s)
  priv : t.priv = .s
  resv : t.resv = none
  pc : t.pc.toNat = s.handler s.stvec interrupt code
  ints : ∀ r, t.ux r = s.ux r
  bytes : SameBytes s t
  beside : t.besideTrapS = s.besideTrapS

/-- The exception with a code is delegated to S-mode (R399). -/
def State.goesToS (s : State) (code : Nat) : Prop :=
  s.cfg.hasS = true ∧ s.priv ≠ .m ∧ s.medeleg.getLsbD code = true

/-- A synchronous exception taken in the mode R399 says. -/
def Trapped (s t : State) (code tval : Nat) : Prop :=
  (s.goesToS code → TrappedS s t false code tval) ∧
    (¬ s.goesToS code → TrappedM s t false code tval)

/-- The instruction takes the exception: a next state, with nothing else done. -/
def Traps (i : Instr) (s : State) (code tval : Nat) : Prop :=
  ∃ t, exec i s = .next t ∧ Trapped s t code tval

/-- The trap value of an instruction that is illegal by its own rule (R395). -/
def State.illegalValue (s : State) (i : Instr) : Nat :=
  match s.cfg.mtvalIllegal with
  | .bits => (encode i).toNat
  | .zero => 0

/-! ## What a lower mode must leave alone -/

/-- Every register and field that only S-mode or M-mode may write, and every trap register, is as before
(R29, R31), but for FS of `mstatus`, which floating-point instructions set (R221); `mcycle` is not written, and
`minstret` counts the one instruction (R35); the interrupt inputs are those the environment gave (R54). -/
structure SamePrivileged (s t : State) : Prop where
  cfg : t.cfg = s.cfg
  mstatus : { t.mstatus with fs := s.mstatus.fs } = s.mstatus
  vectors : t.mtvec = s.mtvec ∧ t.stvec = s.stvec
  delegation : t.medeleg = s.medeleg ∧ t.mideleg = s.mideleg
  interrupts : t.mie = s.mie ∧ t.ssip = s.ssip ∧ t.stip = s.stip ∧ t.seipSw = s.seipSw
  counterEnables : t.mcounteren = s.mcounteren ∧ t.scounteren = s.scounteren
  machineTrap : t.mscratch = s.mscratch ∧ t.mepc = s.mepc ∧ t.mcause = s.mcause ∧ t.mtval = s.mtval
  supervisorTrap : t.sscratch = s.sscratch ∧ t.sepc = s.sepc ∧ t.scause = s.scause ∧ t.stval = s.stval
  translation : t.satp = s.satp ∧ t.staleSatp = s.staleSatp
  counters : t.mcycle = s.mcycle ∧ t.mcycleFrom = s.mcycleFrom ∧ t.minstret = s.minstret + 1
  inputs : t.irq = s.beginStep.irq

/-! ## Floating-point numbers as rationals -/

/-- The value of a finite number (R220). -/
def Datum.value : Datum → Option ℚ
  | .zero _ => some 0
  | .fin neg m e => some ((if neg then -1 else 1) * m * 2 ^ e)
  | _ => none

/-- The value of a number that is not a NaN, with the infinities (R220). -/
def Datum.extended : Datum → Option (WithBot (WithTop ℚ))
  | .inf true => some ⊥
  | .inf false => some ((⊤ : WithTop ℚ) : WithBot (WithTop ℚ))
  | d => d.value.map fun x => ((x : WithTop ℚ) : WithBot (WithTop ℚ))

/-- NV where an operand is a signaling NaN (R224). -/
def nanFlags (ds : List Datum) : FpFlags := if ds.any (·.isSignaling) then 0b10000 else 0

/-- The value of `num / den * 2^exp`. -/
def quotient (num den : Nat) (exp : Int) : ℚ := num / den * 2 ^ exp

/-- `n` is the magnitude `x` rounded to an integer in a direction, for a number of the given sign (R222,
R223 step 1). -/
def RoundedTo (mode : Rounding) (neg : Bool) (x : ℚ) (n : Nat) : Prop :=
  match mode with
  | .rne => |x - n| ≤ 1 / 2 ∧ (|x - n| = 1 / 2 → n % 2 = 0)
  | .rtz => (n : ℚ) ≤ x ∧ x < n + 1
  | .rdn => if neg then x ≤ n ∧ (n : ℚ) < x + 1 else (n : ℚ) ≤ x ∧ x < n + 1
  | .rup => if neg then (n : ℚ) ≤ x ∧ x < n + 1 else x ≤ n ∧ (n : ℚ) < x + 1
  | .rmm => |x - n| ≤ 1 / 2 ∧ (|x - n| = 1 / 2 → x < n)

/-- `n` is the square root of `x` rounded to an integer in a direction (R222, R223 step 1). -/
def RootRoundedTo (mode : Rounding) (x : ℚ) (n : Nat) : Prop :=
  match mode with
  | .rne => (n = 0 ∨ (2 * n - 1 : ℚ) ^ 2 ≤ 4 * x) ∧ 4 * x ≤ (2 * n + 1) ^ 2 ∧
      (4 * x = (2 * n + 1) ^ 2 → n % 2 = 0) ∧ (0 < n → 4 * x = (2 * n - 1) ^ 2 → n % 2 = 0)
  | .rtz | .rdn => (n : ℚ) ^ 2 ≤ x ∧ x < (n + 1) ^ 2
  | .rup => x ≤ (n : ℚ) ^ 2 ∧ (n = 0 ∨ (n - 1 : ℚ) ^ 2 < x)
  | .rmm => (n = 0 ∨ (2 * n - 1 : ℚ) ^ 2 ≤ 4 * x) ∧ 4 * x < (2 * n + 1) ^ 2

/-- The bits are those of the number with the sign and the magnitude (R220). -/
def Format.Represents (F : Format) (neg : Bool) (x : ℚ) (bits : Nat) : Prop :=
  bits < 2 * F.signBit ∧ neg = decide (F.signBit ≤ bits) ∧
    (F.datum bits).value = some (if neg then -x else x)

/-- `emax` (R220). -/
def Format.emax (F : Format) : Int := if F = binary32 then 127 else 1023

/-- The bits of the largest finite number (R220). -/
def Format.greatest (F : Format) : Nat := if F = binary32 then 0x7F7FFFFF else 0x7FEFFFFFFFFFFFFF

/-- The result and the flags `r` are those of `Round_F` (R223) for the magnitude `v` of a number of the given
sign: `x` is `v` to p = M + 1 significant bits (step 1), `y` is `v` to the subnormal grid (step 3). -/
def Format.Rounds (F : Format) (mode : Rounding) (neg : Bool) (v : ℚ) (r : FpResult) : Prop :=
  let M : Int := F.fracBits
  let emin : Int := 1 - F.emax
  ∃ (L : Int) (n k : Nat), (2 : ℚ) ^ L ≤ v ∧ v < 2 ^ (L + 1) ∧
    RoundedTo mode neg (v / 2 ^ (L - M)) n ∧ RoundedTo mode neg (v / 2 ^ (emin - M)) k ∧
    let x : ℚ := n * 2 ^ (L - M)
    let y : ℚ := k * 2 ^ (emin - M)
    let toInfinity : Bool := match mode with
      | .rne | .rmm => true
      | .rtz => false
      | .rdn => neg
      | .rup => !neg
    (2 ^ (F.emax + 1) ≤ x → r = ((if neg then F.signBit else 0) +
      (if toInfinity then F.greatest + 1 else F.greatest), 0b00101)) ∧
    (x < 2 ^ emin → F.Represents neg y r.1 ∧ r.2 = if y = v then 0 else 0b00011) ∧
    (2 ^ emin ≤ x → x < 2 ^ (F.emax + 1) → F.Represents neg x r.1 ∧ r.2 = if x = v then 0 else 0b00001)

/-- The same for the square root of `v` where that is neither tiny nor an overflow, as a root never is (R223,
R225). -/
def Format.RootRounds (F : Format) (mode : Rounding) (v : ℚ) (r : FpResult) : Prop :=
  let M : Int := F.fracBits
  ∃ (L : Int) (n : Nat), 1 - F.emax ≤ L ∧ L ≤ F.emax ∧ (4 : ℚ) ^ L ≤ v ∧ v < 4 ^ (L + 1) ∧
    RootRoundedTo mode (v / 4 ^ (L - M)) n ∧
    let x : ℚ := n * 2 ^ (L - M)
    F.Represents false x r.1 ∧ r.2 = if x ^ 2 = v then 0 else 0b00001

/-! ## The invariant -/

/-- A container holds an XLEN-bit value. -/
def State.fits (s : State) (v : Word) : Prop := v.toNat < s.modulus

/-- The mode is one of MODES (R9, R29). -/
def Priv.existsIn : Priv → Config → Bool
  | .u, c => c.hasU
  | .s, c => c.hasS
  | .m, _ => true

/-- The states the machine can be in between two steps: memory is canonical, containers hold XLEN-bit
values, the pc and the saved pcs are aligned, the modes exist, and every field is in its WARL set. -/
structure State.Inv (s : State) : Prop where
  config : s.cfg.valid = true
  memory : s.mem.wf = true
  betweenSteps : s.beforeFetch = none
  registers : ∀ r : Reg, s.fits s.x[r.toNat]
  single : s.cfg.flen64 = false → ∀ r : Reg, s.f[r.toNat].toNat < 2 ^ 32
  pcFits : s.fits s.pc
  pcAligned : s.pc.toNat % s.cfg.ialignBytes = 0
  mode : s.priv.existsIn s.cfg = true
  mpp : s.mstatus.mpp.existsIn s.cfg = true
  noS : s.cfg.hasS = false → s.mstatus.sie = false ∧ s.mstatus.spie = false ∧
    s.mstatus.spp = false ∧ s.mstatus.sum = false ∧ s.mstatus.mxr = false ∧
    s.mstatus.tvm = false ∧ s.mstatus.tsr = false
  noU : s.cfg.hasU = false → s.mstatus.mprv = false ∧ s.mstatus.tw = false
  noF : s.cfg.extF = false → s.mstatus.fs = 0
  mtvec : s.fits s.mtvec ∧ s.mtvec.getLsbD 1 = false
  stvec : s.fits s.stvec ∧ s.stvec.getLsbD 1 = false
  mepc : s.fits s.mepc ∧ s.mepc.toNat % s.cfg.ialignBytes = 0
  sepc : s.fits s.sepc ∧ s.sepc.toNat % s.cfg.ialignBytes = 0
  delegation : s.medeleg &&& ~~~0xB3FF#64 = 0 ∧ s.mideleg &&& ~~~0x222#64 = 0
  enables : s.mie &&& ~~~(if s.cfg.hasS then 0xAAA#64 else 0x888#64) = 0
  satpMode : satpLegal s.cfg s.satp = true ∧ s.fits s.satp
  words : s.fits s.mscratch ∧ s.fits s.sscratch ∧ s.fits s.mcause ∧ s.fits s.scause ∧
    s.fits s.mtval ∧ s.fits s.stval
  reservation : ∀ r, s.resv = some r → (r.size = 4 ∨ r.size = 8) ∧ r.addr % r.size = 0

end Sys2Proof.Machine
end

