-- ==== Sys2Proof/Certificates/Slice0/Obligations.lean ====
section
/-! DEFINITION. The statements for the provers, each a `Prop` that formalises what the spec says an instruction
or the machine does. The vocabulary is that of `Sys2Proof/Safety.lean`. -/

open Sys2Proof Sys2Proof.Machine

/-! ## Decoding and encoding -/

/-- Decoding undoes encoding, for every instruction with every operand value its encoding admits (R83, R105,
R106). -/
def Obligations.DecodeUndoesEncode : Prop :=
  ∀ (c : Config) (i : Instr), i.existsIn c = true → i.operandsOk c = true → decode c (encode i) = .instr i

/-- A word that decodes to an instruction is that instruction's own word, and the instruction exists in the
configuration (R83, R84). -/
def Obligations.EncodeUndoesDecode : Prop :=
  ∀ (c : Config) (w : BitVec 32) (i : Instr), decode c w = .instr i →
    i.existsIn c = true ∧ i.operandsOk c = true ∧
    (i.size = 4 ↔ w.extractLsb' 0 2 = 3#2) ∧
    encode i = if w.extractLsb' 0 2 = 3#2 then w else (w.extractLsb' 0 16).setWidth 32

/-- A few words written out from the encodings of R105 and R106, and the two words R84 keeps illegal. -/
def Obligations.DecodeKnownWords : Prop :=
  decode Config.default 0x006283B3#32 = .instr (.add 7 5 6) ∧
  decode Config.default 0x00100073#32 = .instr .ebreak ∧
  decode Config.default 0x0000006F#32 = .instr (.jal 0 0) ∧
  decode Config.default (0b0000000#7 ++ 0b00110#5 ++ 0b00101#5 ++ 0b010#3 ++ 0b01000#5 ++ 0b0100011#7) =
    .instr (.sw 6 5 8) ∧
  decode Config.default (0b0000001#7 ++ 3#5 ++ 2#5 ++ 0b111#3 ++ 1#5 ++ 0b1010011#7) =
    .instr (.faddD 1 2 3 7) ∧
  decode Config.default (0b00000#5 ++ 1#1 ++ 0#1 ++ 3#5 ++ 2#5 ++ 0b010#3 ++ 1#5 ++ 0b0101111#7) =
    .instr (.amoaddW 1 3 2 1 0) ∧
  decode Config.default (0#16 ++ (0b000#3 ++ 1#1 ++ 5#5 ++ 0b11111#5 ++ 0b01#2)) =
    .instr (.cAddi 5 (-1)) ∧
  (∀ i, decode Config.default 0x00000000#32 ≠ .instr i) ∧
  (∀ i, decode Config.default 0xFFFFFFFF#32 ≠ .instr i)

/-! ## The step -/

/-- Steps 3 to 6 of R392: with no interrupt to take, the step is the meaning of the instruction at the pc, run
in the state the environment's part of the step leaves (`State.beginStep`). -/
def Obligations.StepRunsDecodedInstruction : Prop :=
  (∀ (s : State) (p q : Nat) (i : Instr), s.beginStep.pendingInterrupt = none →
    FetchAt s.beginStep p q → decode s.cfg (s.beginStep.wordAt p q) = .instr i →
    step s = exec i s.beginStep) ∧
  ∀ (s t : State) (w : BitVec 32) (i : Instr), s.beginStep.pendingInterrupt = none →
    s.beginStep.fetch = .ok (t, w) → decode t.cfg w = .instr i → step s = exec i t

/-- Steps 4, 5 and 7 of R392: the access and page faults of a fetch (R66, R70), and IllegalInstruction for a word
that encodes no instruction of the configuration (R84), with the trap values of R394 and R395. That the pc is the
trap value where both parcels lie in one page is read from R66 (assumption log entry 31). -/
def Obligations.StepsWithoutAnInstructionTrap : Prop :=
  ∀ s : State, s.beginStep.pendingInterrupt = none → AtInstruction s.beginStep →
    let u := s.beginStep
    let pc := u.pc.toNat
    let pc2 := (u.pcPlus 2).toNat
    let tval2 := if pc / 4096 = pc2 / 4096 then pc else pc2
    let traps : Nat → Nat → Prop := fun code tval => ∃ t, step s = .next t ∧ Trapped u t code tval
    (∀ p q, FetchAt u p q → (∀ i, decode s.cfg (u.wordAt p q) ≠ .instr i) →
      traps 2 (match s.cfg.mtvalIllegal with
        | .bits => (u.wordAt p q).toNat
        | .zero => 0)) ∧
    (Forbidden u .fetch pc 2 → traps 1 pc) ∧
    (Unmapped u .fetch u.pc → traps 12 pc) ∧
    ∀ p, ParcelAt u pc p → isLong (BitVec.ofNat 16 (u.bytesAt p 2)) = true →
      (Forbidden u .fetch pc2 2 → traps 1 tval2) ∧ (Unmapped u .fetch (u.pcPlus 2) → traps 12 tval2)

/-- R397, all four steps: pending and enabled bits, their destination, the two global enables, the order. The
premise, that `mie` enables no supervisor interrupt where there is no S-mode (R45), is a clause of `State.Inv`. -/
def Obligations.InterruptSelection : Prop :=
  ∀ (s : State) (n : Nat), (s.cfg.hasS = false → s.mie &&& 0x222 = 0) →
    let pend : Nat → Bool := fun k => s.mie.getLsbD k &&
      (match k with
       | 11 => s.irq.mei
       | 7 => s.irq.mti
       | 3 => s.irq.msi
       | 9 => s.seipSw || s.irq.sei
       | 5 => s.stip
       | 1 => s.ssip
       | _ => false)
    let toS : Nat → Bool := fun k => s.cfg.hasS && s.mideleg.getLsbD k
    let onM : Prop := s.priv ≠ .m ∨ s.mstatus.mie = true
    let onS : Prop := s.priv = .u ∨ (s.priv = .s ∧ s.mstatus.sie = true)
    let first : List Nat → (Nat → Prop) → Prop := fun l p =>
      ∃ before after, l = before ++ n :: after ∧ p n ∧ ∀ k ∈ before, ¬ p k
    s.pendingInterrupt = some n ↔
      (onM ∧ first [11, 3, 7, 9, 1, 5] fun k => pend k = true ∧ toS k = false) ∨
      ((¬ onM ∨ ∀ k ∈ [11, 3, 7, 9, 1, 5], ¬ (pend k = true ∧ toS k = false)) ∧ onS ∧
        first [9, 1, 5] fun k => pend k = true ∧ toS k = true)

/-- Step 3 of R392: a selected interrupt is taken before anything is fetched, in the mode R399 says, with
exactly the changes of R400. -/
def Obligations.InterruptsAreTakenBeforeInstructions : Prop :=
  ∀ (s : State) (n : Nat), s.beginStep.pendingInterrupt = some n → AtInstruction s.beginStep →
    ∃ t, step s = .next t ∧
      ((s.cfg.hasS = true ∧ s.priv ≠ .m ∧ s.mideleg.getLsbD n = true) →
        TrappedS s.beginStep t true n 0) ∧
      (¬ (s.cfg.hasS = true ∧ s.priv ≠ .m ∧ s.mideleg.getLsbD n = true) →
        TrappedM s.beginStep t true n 0)

/-! ## Reset and the invariant -/

/-- The fixed items of R409's table, for every configuration; the values it leaves unspecified are not stated.
That the interrupt inputs are low and that nothing waits for a fence is the model's own (assumption log entries
10 and 12 to 14). -/
def Obligations.ResetFixedValues : Prop :=
  ∀ c : Config,
    let s := State.resetWith c
    s.priv = .m ∧ s.pc = c.resetVector ∧ (∀ v, (s.setX 0 v).getX 0 = 0) ∧
    s.mstatus.mie = false ∧ s.mstatus.mprv = false ∧ s.mstatus.fs = c.fsReset ∧ s.mcause = 0 ∧
    s.resv = none ∧ s.mem.staleCode = [] ∧ s.mem.stalePte = [] ∧ s.staleSatp = [] ∧
    s.irq = { mei := false, mti := false, msi := false, sei := false } ∧
    s.csrRead .mhartid = c.hartId ∧ s.csrRead .mvendorid = c.mvendorid ∧
    s.csrRead .marchid = c.marchid ∧ s.csrRead .mimpid = c.mimpid ∧ s.csrRead .hardwired = 0 ∧
    (∀ n, s.csrRead (.hpmcounter n) = 0) ∧ s.csrRead .misa = misaWord c ∧ s.cfg = c

/-- The state right after reset meets `State.Inv` in every valid configuration. The reset values the spec
leaves unspecified are the model's choice (assumption log entries 3 to 7). -/
def Obligations.ResetMeetsInvariant : Prop :=
  (∀ c : Config, c.valid = true → (State.resetWith c).Inv) ∧ State.reset.Inv

/-- Every step keeps `State.Inv`: the WARL sets of R41 to R51, the pc's alignment (R24), the legal modes (R9),
the canonical form of memory, the reservation's shape (R53). -/
def Obligations.EveryStepKeepsInvariant : Prop :=
  ∀ s t : State, s.Inv → step s = .next t → t.Inv

/-! ## Registers -/

/-- x0 reads as zero always, and a write to it is discarded (R19). -/
def Obligations.RegisterZeroIsHardwired : Prop :=
  ∀ (s : State) (v : Word),
    s.ux 0 = 0 ∧ s.setX 0 v = s ∧
    ∀ r : Reg, r ≠ 0 → (s.setX r v).ux r = s.wrap v.toNat ∧ ∀ q, q ≠ r → (s.setX r v).ux q = s.ux q

/-! ## Integer computation -/

/-- `add`, `addi`, `sub`, `lui`, `auipc` (R110, R111, R136, R117, R116): the sum modulo 2^XLEN, and the frame. -/
def Obligations.AddSubtractResults : Prop :=
  ∀ (s : State) (rd rs1 rs2 : Reg) (imm : BitVec 12) (upper : BitVec 20),
    Computes (.add rd rs1 rs2) s rd (s.ux rs1 + s.ux rs2) 4 ∧
    Computes (.addi rd rs1 imm) s rd (s.ux rs1 + imm.toInt) 4 ∧
    Computes (.sub rd rs1 rs2) s rd (s.ux rs1 - s.ux rs2) 4 ∧
    Computes (.lui rd upper) s rd (4096 * upper.toInt) 4 ∧
    Computes (.auipc rd upper) s rd (s.pc.toNat + 4096 * upper.toInt) 4

/-- `and`, `or`, `xor`, `andi`, `ori`, `xori` (R114, R118, R138, R115, R119, R139) and `slt`, `slti`, `sltu`,
`sltiu` (R124 to R127). -/
def Obligations.BitwiseAndSetLessThanResults : Prop :=
  ∀ (s : State) (rd rs1 rs2 : Reg) (imm : BitVec 12),
    Computes (.and rd rs1 rs2) s rd (s.ux rs1 &&& s.ux rs2 : Nat) 4 ∧
    Computes (.or rd rs1 rs2) s rd (s.ux rs1 ||| s.ux rs2 : Nat) 4 ∧
    Computes (.xor rd rs1 rs2) s rd (s.ux rs1 ^^^ s.ux rs2 : Nat) 4 ∧
    Computes (.andi rd rs1 imm) s rd (s.ux rs1 &&& s.wrap imm.toInt : Nat) 4 ∧
    Computes (.ori rd rs1 imm) s rd (s.ux rs1 ||| s.wrap imm.toInt : Nat) 4 ∧
    Computes (.xori rd rs1 imm) s rd (s.ux rs1 ^^^ s.wrap imm.toInt : Nat) 4 ∧
    Computes (.slt rd rs1 rs2) s rd (if s.sx rs1 < s.sx rs2 then 1 else 0) 4 ∧
    Computes (.slti rd rs1 imm) s rd (if s.sx rs1 < imm.toInt then 1 else 0) 4 ∧
    Computes (.sltu rd rs1 rs2) s rd (if s.ux rs1 < s.ux rs2 then 1 else 0) 4 ∧
    Computes (.sltiu rd rs1 imm) s rd (if s.ux rs1 < s.wrap imm.toInt then 1 else 0) 4

/-- `sll`, `srl`, `sra` and their immediate forms (R120, R132, R128, R121, R133, R129). -/
def Obligations.ShiftResults : Prop :=
  ∀ (s : State) (rd rs1 rs2 : Reg) (shamt : BitVec 6),
    let n := s.ux rs2 % s.cfg.xlen.bits
    Computes (.sll rd rs1 rs2) s rd (s.ux rs1 * 2 ^ n) 4 ∧
    Computes (.slli rd rs1 shamt) s rd (s.ux rs1 * 2 ^ shamt.toNat) 4 ∧
    Computes (.srl rd rs1 rs2) s rd (s.ux rs1 / 2 ^ n) 4 ∧
    Computes (.srli rd rs1 shamt) s rd (s.ux rs1 / 2 ^ shamt.toNat) 4 ∧
    Computes (.sra rd rs1 rs2) s rd (s.sx rs1 / 2 ^ n) 4 ∧
    Computes (.srai rd rs1 shamt) s rd (s.sx rs1 / 2 ^ shamt.toNat) 4

/-- The word forms compute on 32 bits and sign-extend (R112, R113, R137, R122, R123, R130, R131, R134, R135). -/
def Obligations.WordArithmeticResults : Prop :=
  ∀ (s : State) (rd rs1 rs2 : Reg) (imm : BitVec 12) (shamt : BitVec 5),
    let n := s.ux rs2 % 32
    Computes (.addw rd rs1 rs2) s rd (low32 (s.ux rs1 + s.ux rs2)) 4 ∧
    Computes (.addiw rd rs1 imm) s rd (low32 (s.ux rs1 + imm.toInt)) 4 ∧
    Computes (.subw rd rs1 rs2) s rd (low32 (s.ux rs1 - s.ux rs2)) 4 ∧
    Computes (.sllw rd rs1 rs2) s rd (low32 (s.ux rs1 * 2 ^ n)) 4 ∧
    Computes (.slliw rd rs1 shamt) s rd (low32 (s.ux rs1 * 2 ^ shamt.toNat)) 4 ∧
    Computes (.srlw rd rs1 rs2) s rd (low32 (s.ux rs1 % 2 ^ 32 / 2 ^ n)) 4 ∧
    Computes (.srliw rd rs1 shamt) s rd (low32 (s.ux rs1 % 2 ^ 32 / 2 ^ shamt.toNat)) 4 ∧
    Computes (.sraw rd rs1 rs2) s rd (low32 (s.ux rs1) / 2 ^ n) 4 ∧
    Computes (.sraiw rd rs1 shamt) s rd (low32 (s.ux rs1) / 2 ^ shamt.toNat) 4

/-- The five multiplications (R185 to R189) on exact products. -/
def Obligations.MultiplyResults : Prop :=
  ∀ (s : State) (rd rs1 rs2 : Reg),
    Computes (.mul rd rs1 rs2) s rd (s.ux rs1 * s.ux rs2) 4 ∧
    Computes (.mulh rd rs1 rs2) s rd (s.sx rs1 * s.sx rs2 / s.modulus) 4 ∧
    Computes (.mulhsu rd rs1 rs2) s rd (s.sx rs1 * s.ux rs2 / s.modulus) 4 ∧
    Computes (.mulhu rd rs1 rs2) s rd (s.ux rs1 * s.ux rs2 / s.modulus) 4 ∧
    Computes (.mulw rd rs1 rs2) s rd (low32 (s.ux rs1 * s.ux rs2)) 4

/-- The divisions and remainders (R181 to R184, R190 to R193), their corners by DIV_CORNERS (R179). -/
def Obligations.DivideResults : Prop :=
  ∀ (s : State) (rd rs1 rs2 : Reg),
    let d := s.cfg.divCorners
    let signedDiv : Nat → Int → Int → Int := fun n a b =>
      if b = 0 then cornerNumber d.zeroQuotient a
      else if a = -2 ^ (n - 1) ∧ b = -1 then cornerNumber d.overflowQuotient a else a.tdiv b
    let signedRem : Nat → Int → Int → Int := fun n a b =>
      if b = 0 then cornerNumber d.zeroRemainder a
      else if a = -2 ^ (n - 1) ∧ b = -1 then cornerNumber d.overflowRemainder a else a.tmod b
    let unsignedDiv : Int → Int → Int := fun a b =>
      if b = 0 then cornerNumber d.zeroQuotient a else a / b
    let unsignedRem : Int → Int → Int := fun a b =>
      if b = 0 then cornerNumber d.zeroRemainder a else a % b
    let n := s.cfg.xlen.bits
    let word : Reg → Int := fun r => low32 (s.ux r)
    let uword : Reg → Int := fun r => s.ux r % 2 ^ 32
    Computes (.div rd rs1 rs2) s rd (signedDiv n (s.sx rs1) (s.sx rs2)) 4 ∧
    Computes (.rem rd rs1 rs2) s rd (signedRem n (s.sx rs1) (s.sx rs2)) 4 ∧
    Computes (.divu rd rs1 rs2) s rd (unsignedDiv (s.ux rs1) (s.ux rs2)) 4 ∧
    Computes (.remu rd rs1 rs2) s rd (unsignedRem (s.ux rs1) (s.ux rs2)) 4 ∧
    Computes (.divw rd rs1 rs2) s rd (low32 (signedDiv 32 (word rs1) (word rs2))) 4 ∧
    Computes (.remw rd rs1 rs2) s rd (low32 (signedRem 32 (word rs1) (word rs2))) 4 ∧
    Computes (.divuw rd rs1 rs2) s rd (low32 (unsignedDiv (uword rs1) (uword rs2))) 4 ∧
    Computes (.remuw rd rs1 rs2) s rd (low32 (unsignedRem (uword rs1) (uword rs2))) 4

/-! ## Control transfer -/

/-- The six branches (R141 to R146), taken to an aligned target and not taken, and `jal` and `jalr` (R147, R148) to
an aligned target. -/
def Obligations.BranchAndJumpResults : Prop :=
  ∀ (s : State) (rd rs1 rs2 : Reg) (off : BitVec 20) (imm : BitVec 12),
    let target : Int := s.pc.toNat + 2 * imm.toInt
    let jalTarget : Int := s.pc.toNat + 2 * off.toInt
    let jalrTarget : Int := (s.dataAddress rs1 imm.toInt / 2 * 2 : Nat)
    Branches (.beq rs1 rs2 imm) s (s.ux rs1 = s.ux rs2) target ∧
    Branches (.bne rs1 rs2 imm) s (s.ux rs1 ≠ s.ux rs2) target ∧
    Branches (.blt rs1 rs2 imm) s (s.sx rs1 < s.sx rs2) target ∧
    Branches (.bge rs1 rs2 imm) s (s.sx rs2 ≤ s.sx rs1) target ∧
    Branches (.bltu rs1 rs2 imm) s (s.ux rs1 < s.ux rs2) target ∧
    Branches (.bgeu rs1 rs2 imm) s (s.ux rs2 ≤ s.ux rs1) target ∧
    (s.wrap jalTarget % s.cfg.ialignBytes = 0 →
      ∃ t, exec (.jal rd off) s = .next t ∧ WroteX s t rd (s.pc.toNat + 4) jalTarget) ∧
    (s.wrap jalrTarget % s.cfg.ialignBytes = 0 →
      ∃ t, exec (.jalr rd rs1 imm) s = .next t ∧ WroteX s t rd (s.pc.toNat + 4) jalrTarget)

/-- InstructionAddressMisaligned is raised by the jump or the taken branch, with the target as trap value (R24,
R140, R394). -/
def Obligations.MisalignedTargetsTrap : Prop :=
  ∀ (s : State), AtInstruction s → ∀ (rd rs1 rs2 : Reg) (off : BitVec 20) (imm : BitVec 12),
    let jal := s.wrap (s.pc.toNat + 2 * off.toInt)
    let jalr := s.dataAddress rs1 imm.toInt / 2 * 2
    let br := s.wrap (s.pc.toNat + 2 * imm.toInt)
    (jal % s.cfg.ialignBytes ≠ 0 → Traps (.jal rd off) s 0 jal) ∧
    (jalr % s.cfg.ialignBytes ≠ 0 → Traps (.jalr rd rs1 imm) s 0 jalr) ∧
    (br % s.cfg.ialignBytes ≠ 0 →
      (s.ux rs1 = s.ux rs2 → Traps (.beq rs1 rs2 imm) s 0 br) ∧
      (s.ux rs1 ≠ s.ux rs2 → Traps (.bne rs1 rs2 imm) s 0 br) ∧
      (s.sx rs1 < s.sx rs2 → Traps (.blt rs1 rs2 imm) s 0 br) ∧
      (s.sx rs2 ≤ s.sx rs1 → Traps (.bge rs1 rs2 imm) s 0 br) ∧
      (s.ux rs1 < s.ux rs2 → Traps (.bltu rs1 rs2 imm) s 0 br) ∧
      (s.ux rs2 ≤ s.ux rs1 → Traps (.bgeu rs1 rs2 imm) s 0 br))

/-! ## Loads, stores, atomics -/

/-- The seven loads (R150 to R156), where every check allows the access, translated (R68 to R70) or not. -/
def Obligations.LoadResults : Prop :=
  ∀ (s : State) (rd rs1 : Reg) (imm : BitVec 12) (p : Nat),
    let a := s.dataAddress rs1 imm.toInt
    (Reaches s .load a 1 p →
      Computes (.lb rd rs1 imm) s rd (signedBytes 1 (s.bytesAt p 1)) 4 ∧
      Computes (.lbu rd rs1 imm) s rd (s.bytesAt p 1) 4) ∧
    (Reaches s .load a 2 p →
      Computes (.lh rd rs1 imm) s rd (signedBytes 2 (s.bytesAt p 2)) 4 ∧
      Computes (.lhu rd rs1 imm) s rd (s.bytesAt p 2) 4) ∧
    (Reaches s .load a 4 p →
      Computes (.lw rd rs1 imm) s rd (signedBytes 4 (s.bytesAt p 4)) 4 ∧
      Computes (.lwu rd rs1 imm) s rd (s.bytesAt p 4) 4) ∧
    (Reaches s .load a 8 p → Computes (.ld rd rs1 imm) s rd (s.bytesAt p 8) 4)

/-- The four stores (R157 to R160), where every check allows the access, translated (R68 to R70) or not. -/
def Obligations.StoreResults : Prop :=
  ∀ (s : State) (rs2 rs1 : Reg) (imm : BitVec 12) (p : Nat),
    let a := s.dataAddress rs1 imm.toInt
    (Reaches s .store a 1 p → Stores (.sb rs2 rs1 imm) s p 1 (s.ux rs2) 4) ∧
    (Reaches s .store a 2 p → Stores (.sh rs2 rs1 imm) s p 2 (s.ux rs2) 4) ∧
    (Reaches s .store a 4 p → Stores (.sw rs2 rs1 imm) s p 4 (s.ux rs2) 4) ∧
    (Reaches s .store a 8 p → Stores (.sd rs2 rs1 imm) s p 8 (s.ux rs2) 4)

/-- R67's table for every data access: address-misaligned (R61), page fault (R70) and access fault (R57). -/
def Obligations.DataAccessesTrap : Prop :=
  ∀ (s : State) (i : Instr) (d : DataAccess), AtInstruction s → accessOf i = some d →
    (i.usesFp = true → s.mstatus.fs ≠ 0) →
    let a := s.accessAddress d
    let code : Nat → Nat → Nat := fun load store => match d.op with
      | .load | .lr => load
      | _ => store
    (a % d.size ≠ 0 → (d.op = .load ∨ d.op = .store → s.cfg.misalignedData = .trap) →
      Traps i s (code 4 6) a) ∧
    (Forbidden s d.op a d.size → Traps i s (code 5 7) a) ∧
    (a % d.size = 0 → Unmapped s d.op.access (BitVec.ofNat 64 a) → Traps i s (code 13 15) a)

/-- R61, `bytewise`: the access is made as n one-byte accesses at rising addresses; the failing byte's address is
the trap value (R67). -/
def Obligations.BytewiseMisalignedAccesses : Prop :=
  ∀ s : State, s.cfg.misalignedData = .bytewise →
    (∀ (rd rs1 rs2 : Reg) (imm : BitVec 12) (rd' rs1' rs2' : CReg) (o5 : BitVec 5) (o6 : BitVec 6)
      (p : Nat → Nat),
      let reaches : MemOp → Nat → Nat → Prop := fun op a n =>
        a % n ≠ 0 ∧ ∀ k, k < n → Reaches s op ((a + k) % s.modulus) 1 (p k)
      let loads : Instr → Reg → Nat → Nat → Int → Nat → Prop := fun i r a n v len =>
        reaches .load a n → Computes i s r v len
      let stores : Instr → Reg → Nat → Nat → Nat → Prop := fun i r a n len =>
        reaches .store a n → StoresBytes i s p n (s.ux r) len
      let floats4 : Instr → Reg → Nat → Nat → Prop := fun i r a len =>
        s.mstatus.fs ≠ 0 → reaches .load a 4 →
          ∃ t, exec i s = .next t ∧ WroteF s t r (s.boxed (s.bytesOf p 4)) 0 len
      let floats8 : Instr → Reg → Nat → Nat → Prop := fun i r a len =>
        s.mstatus.fs ≠ 0 → s.cfg.extD = true → reaches .load a 8 →
          ∃ t, exec i s = .next t ∧ WroteF s t r (s.bytesOf p 8) 0 len
      let storesF : Instr → Reg → Nat → Nat → Nat → Prop := fun i r a n len =>
        s.mstatus.fs ≠ 0 → reaches .store a n → StoresBytes i s p n (s.getF r).toNat len
      let a := s.dataAddress rs1 imm.toInt
      let a4 := s.dataAddress rs1'.reg (4 * o5.toNat)
      let a8 := s.dataAddress rs1'.reg (8 * o5.toNat)
      let s4 := s.dataAddress 2 (4 * o6.toNat)
      let s8 := s.dataAddress 2 (8 * o6.toNat)
      loads (.lh rd rs1 imm) rd a 2 (signedBytes 2 (s.bytesOf p 2)) 4 ∧
      loads (.lhu rd rs1 imm) rd a 2 (s.bytesOf p 2) 4 ∧
      loads (.lw rd rs1 imm) rd a 4 (signedBytes 4 (s.bytesOf p 4)) 4 ∧
      loads (.lwu rd rs1 imm) rd a 4 (s.bytesOf p 4) 4 ∧
      loads (.ld rd rs1 imm) rd a 8 (s.bytesOf p 8) 4 ∧
      loads (.cLw rd' rs1' o5) rd'.reg a4 4 (signedBytes 4 (s.bytesOf p 4)) 2 ∧
      loads (.cLd rd' rs1' o5) rd'.reg a8 8 (s.bytesOf p 8) 2 ∧
      loads (.cLwsp rd o6) rd s4 4 (signedBytes 4 (s.bytesOf p 4)) 2 ∧
      loads (.cLdsp rd o6) rd s8 8 (s.bytesOf p 8) 2 ∧
      stores (.sh rs2 rs1 imm) rs2 a 2 4 ∧ stores (.sw rs2 rs1 imm) rs2 a 4 4 ∧
      stores (.sd rs2 rs1 imm) rs2 a 8 4 ∧ stores (.cSw rs2' rs1' o5) rs2'.reg a4 4 2 ∧
      stores (.cSd rs2' rs1' o5) rs2'.reg a8 8 2 ∧ stores (.cSwsp rs2 o6) rs2 s4 4 2 ∧
      stores (.cSdsp rs2 o6) rs2 s8 8 2 ∧
      floats4 (.flw rd rs1 imm) rd a 4 ∧ floats4 (.cFlw rd' rs1' o5) rd'.reg a4 2 ∧
      floats4 (.cFlwsp rd o6) rd s4 2 ∧
      floats8 (.fld rd rs1 imm) rd a 4 ∧ floats8 (.cFld rd' rs1' o5) rd'.reg a8 2 ∧
      floats8 (.cFldsp rd o6) rd s8 2 ∧
      storesF (.fsw rs2 rs1 imm) rs2 a 4 4 ∧ storesF (.cFsw rs2' rs1' o5) rs2'.reg a4 4 2 ∧
      storesF (.cFswsp rs2 o6) rs2 s4 4 2 ∧
      storesF (.fsd rs2 rs1 imm) rs2 a 8 4 ∧ storesF (.cFsd rs2' rs1' o5) rs2'.reg a8 8 2 ∧
      storesF (.cFsdsp rs2 o6) rs2 s8 8 2) ∧
    ∀ (i : Instr) (d : DataAccess) (k : Nat) (p : Nat → Nat), AtInstruction s → accessOf i = some d →
      (i.usesFp = true → s.mstatus.fs ≠ 0) → d.op = .load ∨ d.op = .store → k < d.size →
      s.accessAddress d % d.size ≠ 0 →
      let a : Nat → Nat := fun k => (s.accessAddress d + k) % s.modulus
      let code : Nat → Nat → Nat := fun load store => if d.op = .load then load else store
      (∀ m, m < k → Reaches s d.op (a m) 1 (p m)) →
      (Forbidden s d.op (a k) 1 → Traps i s (code 5 7) (a k)) ∧
      (Unmapped s d.op.access (BitVec.ofNat 64 (a k)) → Traps i s (code 13 15) (a k))

/-- The spec gives `io` regions no behaviour (R57): a read or write there stops by name (assumption log entry 16).
An `sc` that fails reads and writes nothing (R196 step 4). -/
def Obligations.IoAccessesAreRefused : Prop :=
  (∀ (s : State) (i : Instr) (d : DataAccess) (p b : Nat), accessOf i = some d →
    (i.usesFp = true → s.mstatus.fs ≠ 0) → d.op ≠ .sc →
    TouchesIo s d.op (s.accessAddress d) d.size p b → exec i s = .refused (.ioAccess b)) ∧
  ∀ (s : State) (rd rs2 rs1 : Reg) (aq rl : BitVec 1) (p b : Nat),
    let fails : Instr → Nat → Prop := fun i n => TouchesIo s .sc (s.ux rs1) n p b →
      (s.resv ≠ some { addr := p, size := n } → ScFails i s rd) ∧
      (s.resv = some { addr := p, size := n } → s.cfg.scSpuriousFail = false →
        exec i s = .refused (.ioAccess b))
    fails (.scW rd rs2 rs1 aq rl) 4 ∧ fails (.scD rd rs2 rs1 aq rl) 8

/-- The nine `amo*.w` (R194), where every check allows the access, translated (R68 to R70) or not. -/
def Obligations.AmoWordResults : Prop :=
  ∀ (s : State) (rd rs2 rs1 : Reg) (aq rl : BitVec 1) (p : Nat),
    let a := s.ux rs1
    let old := s.bytesAt p 4
    let v := s.ux rs2 % 2 ^ 32
    let r := signedBytes 4 old
    Reaches s .amo a 4 p →
      Amo (.amoswapW rd rs2 rs1 aq rl) s rd p 4 r v ∧
      Amo (.amoaddW rd rs2 rs1 aq rl) s rd p 4 r (old + v) ∧
      Amo (.amoandW rd rs2 rs1 aq rl) s rd p 4 r (old &&& v) ∧
      Amo (.amoorW rd rs2 rs1 aq rl) s rd p 4 r (old ||| v) ∧
      Amo (.amoxorW rd rs2 rs1 aq rl) s rd p 4 r (old ^^^ v) ∧
      Amo (.amominW rd rs2 rs1 aq rl) s rd p 4 r (if signedBytes 4 old < signedBytes 4 v then old else v) ∧
      Amo (.amomaxW rd rs2 rs1 aq rl) s rd p 4 r (if signedBytes 4 old < signedBytes 4 v then v else old) ∧
      Amo (.amominuW rd rs2 rs1 aq rl) s rd p 4 r (min old v) ∧
      Amo (.amomaxuW rd rs2 rs1 aq rl) s rd p 4 r (max old v)

/-- The nine `amo*.d` (R194), where every check allows the access, translated (R68 to R70) or not. -/
def Obligations.AmoDoublewordResults : Prop :=
  ∀ (s : State) (rd rs2 rs1 : Reg) (aq rl : BitVec 1) (p : Nat), s.cfg.xlen = .rv64 →
    let a := s.ux rs1
    let old := s.bytesAt p 8
    let v := s.ux rs2
    Reaches s .amo a 8 p →
      Amo (.amoswapD rd rs2 rs1 aq rl) s rd p 8 old v ∧
      Amo (.amoaddD rd rs2 rs1 aq rl) s rd p 8 old (old + v) ∧
      Amo (.amoandD rd rs2 rs1 aq rl) s rd p 8 old (old &&& v) ∧
      Amo (.amoorD rd rs2 rs1 aq rl) s rd p 8 old (old ||| v) ∧
      Amo (.amoxorD rd rs2 rs1 aq rl) s rd p 8 old (old ^^^ v) ∧
      Amo (.amominD rd rs2 rs1 aq rl) s rd p 8 old (if signedBytes 8 old < s.sx rs2 then old else v) ∧
      Amo (.amomaxD rd rs2 rs1 aq rl) s rd p 8 old (if signedBytes 8 old < s.sx rs2 then v else old) ∧
      Amo (.amominuD rd rs2 rs1 aq rl) s rd p 8 old (min old v) ∧
      Amo (.amomaxuD rd rs2 rs1 aq rl) s rd p 8 old (max old v)

/-- `lr.w`, `lr.d` (R195, R77) and `sc.w`, `sc.d` (R196): `sc` stores exactly where the reservation is on these
bytes and the environment does not let it fail; the reservation is cleared either way. -/
def Obligations.LoadReservedStoreConditionalResults : Prop :=
  ∀ (s : State) (rd rs2 rs1 : Reg) (aq rl : BitVec 1) (p : Nat),
    let a := s.ux rs1
    let v := s.ux rs2
    let held : Nat → Prop := fun n => s.resv = some { addr := p, size := n }
    (Reaches s .lr a 4 p →
      LoadsReserved (.lrW rd rs1 aq rl) s rd p 4 (signedBytes 4 (s.bytesAt p 4))) ∧
    (Reaches s .lr a 8 p → LoadsReserved (.lrD rd rs1 aq rl) s rd p 8 (s.bytesAt p 8)) ∧
    (Reaches s .sc a 4 p →
      (¬ held 4 → ScFails (.scW rd rs2 rs1 aq rl) s rd) ∧
      (held 4 → s.cfg.scSpuriousFail = false → ScStores (.scW rd rs2 rs1 aq rl) s rd p 4 v) ∧
      (held 4 → ScStores (.scW rd rs2 rs1 aq rl) s rd p 4 v ∨ ScFails (.scW rd rs2 rs1 aq rl) s rd)) ∧
    (Reaches s .sc a 8 p →
      (¬ held 8 → ScFails (.scD rd rs2 rs1 aq rl) s rd) ∧
      (held 8 → s.cfg.scSpuriousFail = false → ScStores (.scD rd rs2 rs1 aq rl) s rd p 8 v) ∧
      (held 8 → ScStores (.scD rd rs2 rs1 aq rl) s rd p 8 v ∨ ScFails (.scD rd rs2 rs1 aq rl) s rd))

/-- Only the instructions of `Instr.storesMemory` change a byte of memory (R65, R194, R196), but for the
hardware update of page-table entries (R70 step 7). -/
def Obligations.OnlyStoringInstructionsWriteMemory : Prop :=
  ∀ (i : Instr) (s t : State), i.storesMemory = false → s.cfg.pteAdUpdate = .fault →
    s.beforeFetch = none → exec i s = .next t → SameBytes s t

/-! ## Translation -/

/-- R70, all steps, for the three schemes of R69. The walk is described by `ReachesLeaf`, `ReachesInvalid` and
`ReachesUnreadable`. Which access fault a forbidden A or D update raises is left open where R70 and R394 differ
(assumption log entry 37). -/
def Obligations.PageTableWalks : Prop :=
  ∀ (s : State) (acc : Access) (v : Word) (sch : Scheme), PagingOn s acc sch →
    let root := s.rootTable sch
    let faults : (Access → Exc) → Prop := fun kind => s.translate acc v = .raise (kind acc) v
    (¬ sch.holds v → faults pageFault) ∧
    (sch.holds v →
      (ReachesInvalid s sch v sch.top root → faults pageFault) ∧
      (ReachesUnreadable s sch v sch.top root → faults accessFault) ∧
      ∀ j a pte, ReachesLeaf s sch v sch.top root j a pte →
        (¬ LeafMaps s acc sch j pte → faults pageFault) ∧
        (LeafMaps s acc sch j pte →
          (LeafUsed acc pte → s.translate acc v = .ok (s, sch.under j pte v)) ∧
          (¬ LeafUsed acc pte →
            (s.cfg.pteAdUpdate = .fault → faults pageFault) ∧
            (s.cfg.pteAdUpdate = .hardware →
              (PteIn s (·.writable) a sch.pteSize →
                ∃ t, s.translate acc v = .ok (t, sch.under j pte v) ∧ UpdatedAd s t acc a) ∧
              (¬ PteIn s (·.writable) a sch.pteSize → faults (adUpdateFault s.tick) ∧
                (adUpdateFault s.tick acc = accessFault acc ∨ adUpdateFault s.tick acc = .storeAccessFault))))))

/-! ## CSRs, traps and returns -/

/-- The six CSR instructions (R161), where `csrAccess` (R31) allows the access. -/
def Obligations.CsrInstructionsComplete : Prop :=
  ∀ (s : State) (rd rs1 : Reg) (a : BitVec 12) (z : BitVec 5) (r : Csr),
    (s.csrAccess a true = some r →
      CsrCompletes (.csrrw rd a rs1) s r rd (some (s.getX rs1)) ∧
      CsrCompletes (.csrrwi rd a z) s r rd (some (z.setWidth 64)) ∧
      (rs1 ≠ 0 →
        CsrCompletes (.csrrs rd a rs1) s r rd (some (s.cfg.xlen.norm (s.csrBase r ||| s.getX rs1))) ∧
        CsrCompletes (.csrrc rd a rs1) s r rd (some (s.cfg.xlen.norm (s.csrBase r &&& ~~~s.getX rs1)))) ∧
      (z ≠ 0 →
        CsrCompletes (.csrrsi rd a z) s r rd (some (s.cfg.xlen.norm (s.csrBase r ||| z.setWidth 64))) ∧
        CsrCompletes (.csrrci rd a z) s r rd
          (some (s.cfg.xlen.norm (s.csrBase r &&& ~~~(z.setWidth 64)))))) ∧
    (s.csrAccess a false = some r →
      CsrCompletes (.csrrs rd a 0) s r rd none ∧ CsrCompletes (.csrrc rd a 0) s r rd none ∧
      CsrCompletes (.csrrsi rd a 0) s r rd none ∧ CsrCompletes (.csrrci rd a 0) s r rd none)

/-- R31, checks 1 to 4: each makes the instruction raise IllegalInstruction, and an access that passes them all is
allowed (`State.csrAccess`), so that `CsrInstructionsComplete` says what it does. -/
def Obligations.CsrAccessesAreChecked : Prop :=
  ∀ (s : State), AtInstruction s → ∀ (rd rs1 : Reg) (a : BitVec 12) (z : BitVec 5),
    let level := if a.toNat / 256 % 4 = 2 then 3 else a.toNat / 256 % 4
    let mode := match s.priv with
      | .u => 0
      | .s => 1
      | .m => 3
    let readOnly : Prop := a.toNat / 1024 = 3
    let barred : Prop := mode < level ∨ csrAt s.cfg a = none ∨
      (a.toNat ∈ [1, 2, 3] ∧ s.mstatus.fs = 0) ∨
      (a.toNat = 0x180 ∧ s.priv = .s ∧ s.mstatus.tvm = true) ∨
      ((a.toNat / 32 = 0x60 ∨ a.toNat / 32 = 0x64) ∧
        ((s.priv ≠ .m ∧ s.mcounteren.getLsbD (a.toNat % 32) = false) ∨
          (s.priv = .u ∧ s.cfg.hasS = true ∧ s.scounteren.getLsbD (a.toNat % 32) = false)))
    let illegal : Instr → Prop := fun i => Traps i s 2 (s.illegalValue i)
    (barred → illegal (.csrrs rd a 0) ∧ illegal (.csrrc rd a 0) ∧ illegal (.csrrsi rd a 0) ∧
      illegal (.csrrci rd a 0)) ∧
    (barred ∨ readOnly →
      illegal (.csrrw rd a rs1) ∧ illegal (.csrrwi rd a z) ∧
      (rs1 ≠ 0 → illegal (.csrrs rd a rs1) ∧ illegal (.csrrc rd a rs1)) ∧
      (z ≠ 0 → illegal (.csrrsi rd a z) ∧ illegal (.csrrci rd a z))) ∧
    (¬ barred → (∃ r, csrAt s.cfg a = some r) ∧ s.csrAccess a false = csrAt s.cfg a ∧
      (¬ readOnly → s.csrAccess a true = csrAt s.cfg a))

/-- The addresses and the WARL masks of R43, R44, R47 to R50, and the write of `satp` (R51), through `csrrw` (R168).
The record of old values of `satp` is the model's own (assumption log entry 14). -/
def Obligations.TrapAndTranslationCsrWrites : Prop :=
  ∀ (s : State) (rd rs1 : Reg), s.priv = .m →
    let v := s.ux rs1
    let low := s.cfg.ialignBytes
    let swaps : BitVec 12 → (State → Word) → (State → Word → State) → Nat → Prop :=
      fun a field put new =>
        ∃ t, exec (.csrrw rd a rs1) s = .next t ∧ Retired s t (s.pc.toNat + 4) ∧
          (field t).toNat = new ∧ (t.ux rd = if rd = 0 then 0 else s.wrap (field s).toNat) ∧
          SameX s t rd ∧ SameBytes s t ∧ put t.besideX (field s) = s.besideX
    swaps 0x305 State.mtvec (fun s w => { s with mtvec := w }) (v / 4 * 4 + v % 2) ∧
    swaps 0x340 State.mscratch (fun s w => { s with mscratch := w }) v ∧
    swaps 0x341 State.mepc (fun s w => { s with mepc := w }) (v / low * low) ∧
    swaps 0x342 State.mcause (fun s w => { s with mcause := w }) v ∧
    swaps 0x343 State.mtval (fun s w => { s with mtval := w }) v ∧
    (s.cfg.hasS = true →
      swaps 0x105 State.stvec (fun s w => { s with stvec := w }) (v / 4 * 4 + v % 2) ∧
      swaps 0x140 State.sscratch (fun s w => { s with sscratch := w }) v ∧
      swaps 0x141 State.sepc (fun s w => { s with sepc := w }) (v / low * low) ∧
      swaps 0x142 State.scause (fun s w => { s with scause := w }) v ∧
      swaps 0x143 State.stval (fun s w => { s with stval := w }) v ∧
      swaps 0x302 State.medeleg (fun s w => { s with medeleg := w }) (v &&& 0xB3FF) ∧
      swaps 0x303 State.mideleg (fun s w => { s with mideleg := w }) (v &&& 0x222) ∧
      let put : State → Word → State := fun t w => { t with satp := w, staleSatp := s.staleSatp }
      match s.cfg.xlen with
      | .rv32 =>
        let legal := v / 2 ^ 31 = 0 ∨ s.cfg.sv32 = true
        (legal → swaps 0x180 State.satp put
          (v / 2 ^ 31 * 2 ^ 31 + v / 2 ^ 22 % 2 ^ 9 % 2 ^ s.cfg.asidLen * 2 ^ 22 + v % 2 ^ 22)) ∧
        (¬ legal → swaps 0x180 State.satp put s.satp.toNat)
      | .rv64 =>
        let legal := v / 2 ^ 60 = 0 ∨ (v / 2 ^ 60 = 8 ∧ s.cfg.sv39 = true) ∨
          (v / 2 ^ 60 = 9 ∧ s.cfg.sv48 = true)
        (legal → swaps 0x180 State.satp put
          (v / 2 ^ 60 * 2 ^ 60 + v / 2 ^ 44 % 2 ^ 16 % 2 ^ s.cfg.asidLen * 2 ^ 44 + v % 2 ^ 44)) ∧
        (¬ legal → swaps 0x180 State.satp put s.satp.toNat))

/-- `fcsr`, `frm` and `fflags` (R34), through `csrrs` with x0 and `csrrw`. -/
def Obligations.FloatStatusRegisterViews : Prop :=
  ∀ (s : State) (rd rs1 : Reg), s.cfg.extF = true → s.mstatus.fs ≠ 0 →
    let v := s.ux rs1
    let flags := s.fflags.toNat
    let frm := s.frm.toNat
    let reads : BitVec 12 → Nat → Prop := fun a old => Computes (.csrrs rd a 0) s rd old 4
    let swaps : BitVec 12 → Nat → Nat → Nat → Prop := fun a old newFlags newFrm =>
      ∃ t, exec (.csrrw rd a rs1) s = .next t ∧ Retired s t (s.pc.toNat + 4) ∧
        t.fflags.toNat = newFlags ∧ t.frm.toNat = newFrm ∧ t.mstatus = { s.mstatus with fs := 3 } ∧
        (t.ux rd = if rd = 0 then 0 else old) ∧ SameX s t rd ∧ SameBytes s t ∧
        { t.besideX with fflags := s.fflags, frm := s.frm, mstatus := s.mstatus } = s.besideX
    reads 0x001 flags ∧ reads 0x002 frm ∧ reads 0x003 (flags + 32 * frm) ∧
    swaps 0x001 flags (v % 32) frm ∧ swaps 0x002 frm flags (v % 8) ∧
    swaps 0x003 (flags + 32 * frm) (v % 32) (v / 32 % 8)

/-- The counters and their views (R35), the counter enables (R37), and the CSRs that ignore writes (R36, R40) or are
read-only (R38, R39). `State.cycleNow` is the cycle count; its and `Time()`'s advance are free values (assumption
log entries 8, 9 and 26). -/
def Obligations.CountersEnablesAndHardwiredCsrs : Prop :=
  (∀ s : State,
    s.beginStep.cycleNow = s.cycleNow + BitVec.ofNat 64 (Config.cycleIncrement s.tick) ∧
    s.beginStep.timeNow = s.timeNow + BitVec.ofNat 64 (Config.timeIncrement s.tick) ∧
    s.beginStep.minstret = s.minstret) ∧
  ∀ (s : State) (rd rs1 : Reg), s.priv = .m →
    let v := s.ux rs1
    let cycle := s.cycleNow.toNat
    let time := s.timeNow.toNat
    let instret := s.minstret.toNat
    let counted := (instret + 1) % 2 ^ 64
    let c := s.cfg
    let bit : Bool → Nat → Nat := fun b k => if b then 2 ^ k else 0
    let misa := (if c.xlen = .rv32 then 2 ^ 30 else 2 ^ 63) + 2 ^ 8 + bit c.extA 0 + bit c.extC 2 +
      bit c.extD 3 + bit c.extF 5 + bit c.extM 12 + bit c.hasS 18 + bit c.hasU 20
    let reads : BitVec 12 → Nat → Prop := fun a n => Computes (.csrrs rd a 0) s rd n 4
    let ignores : BitVec 12 → Nat → Prop := fun a n => reads a n ∧ Computes (.csrrw rd a rs1) s rd n 4
    let swaps : BitVec 12 → Nat → Nat → Nat → Prop := fun a old newCycle newInstret =>
      ∃ t, exec (.csrrw rd a rs1) s = .next t ∧ t.pc.toNat = s.wrap (s.pc.toNat + 4) ∧
        t.cycleNow.toNat = newCycle ∧ t.minstret.toNat = newInstret ∧
        (t.ux rd = if rd = 0 then 0 else s.wrap old) ∧ SameX s t rd ∧ SameBytes s t ∧
        { t.besideX with mcycle := s.mcycle, mcycleFrom := s.mcycleFrom } = s.besideX
    let enables : BitVec 12 → (State → BitVec 32) → (State → BitVec 32 → State) → Prop :=
      fun a field put => reads a (field s).toNat ∧
        ∃ t, exec (.csrrw rd a rs1) s = .next t ∧ Retired s t (s.pc.toNat + 4) ∧
          (field t).toNat = v % 2 ^ 32 ∧ (t.ux rd = if rd = 0 then 0 else (field s).toNat) ∧
          SameX s t rd ∧ SameBytes s t ∧ put t.besideX (field s) = s.besideX
    reads 0xC00 cycle ∧ reads 0xB00 cycle ∧ reads 0xC01 time ∧ reads 0xC02 instret ∧
    reads 0xB02 instret ∧
    (∀ n : BitVec 12, 3 ≤ n → n < 32 →
      reads (0xC00 + n) 0 ∧ ignores (0xB00 + n) 0 ∧ ignores (0x320 + n) 0) ∧
    (c.hasU = true → enables 0x306 State.mcounteren fun s w => { s with mcounteren := w }) ∧
    (c.hasS = true → enables 0x106 State.scounteren fun s w => { s with scounteren := w }) ∧
    ignores 0x301 misa ∧ reads 0xF11 c.mvendorid.toNat ∧ reads 0xF12 c.marchid.toNat ∧
    reads 0xF13 c.mimpid.toNat ∧ reads 0xF14 c.hartId.toNat ∧
    match c.xlen with
    | .rv64 => swaps 0xB00 cycle v counted ∧ swaps 0xB02 instret cycle v
    | .rv32 =>
      reads 0xC80 (cycle / 2 ^ 32) ∧ reads 0xB80 (cycle / 2 ^ 32) ∧ reads 0xC81 (time / 2 ^ 32) ∧
      reads 0xC82 (instret / 2 ^ 32) ∧ reads 0xB82 (instret / 2 ^ 32) ∧
      (∀ n : BitVec 12, 3 ≤ n → n < 32 → reads (0xC80 + n) 0 ∧ ignores (0xB80 + n) 0) ∧
      swaps 0xB00 cycle (cycle / 2 ^ 32 * 2 ^ 32 + v) counted ∧
      swaps 0xB80 (cycle / 2 ^ 32) (v * 2 ^ 32 + cycle % 2 ^ 32) counted ∧
      swaps 0xB02 instret cycle (instret / 2 ^ 32 * 2 ^ 32 + v) ∧
      swaps 0xB82 (instret / 2 ^ 32) cycle (v * 2 ^ 32 + instret % 2 ^ 32)

/-- `mip` and `mie` (R45), `sip` and `sie` (R46), at their addresses (R33); without S only codes 3, 7 and 11 exist
(R396). -/
def Obligations.InterruptRegisterViews : Prop :=
  ∀ (s : State) (v : Word),
    let hasS := s.cfg.hasS
    let machine : List Nat := [3, 7, 11]
    let supervisor : List Nat := [1, 5, 9]
    let mip : Nat → Bool := fun k => (s.csrRead .mip).getLsbD k
    csrAt s.cfg 0x344 = some .mip ∧ csrAt s.cfg 0x304 = some .mie ∧
    (hasS = true → csrAt s.cfg 0x144 = some .sip ∧ csrAt s.cfg 0x104 = some .sie) ∧
    (∀ k, mip k = (match k with
      | 1 => hasS && s.ssip
      | 3 => s.irq.msi
      | 5 => hasS && s.stip
      | 7 => s.irq.mti
      | 9 => hasS && (s.seipSw || s.irq.sei)
      | 11 => s.irq.mei
      | _ => false)) ∧
    (∀ k, (s.csrBase .mip).getLsbD k = if k = 9 then hasS && s.seipSw else mip k) ∧
    (∀ k, (s.csrRead .sip).getLsbD k = (decide (k ∈ supervisor) && s.mideleg.getLsbD k && mip k)) ∧
    s.csrRead .mie = s.mie ∧
    (∀ k, (s.csrRead .sie).getLsbD k =
      (decide (k ∈ supervisor) && s.mideleg.getLsbD k && s.mie.getLsbD k)) ∧
    (∀ k, (s.csrWrite .mie v).mie.getLsbD k =
      (v.getLsbD k && (decide (k ∈ machine) || (hasS && decide (k ∈ supervisor))))) ∧
    { s.csrWrite .mie v with mie := s.mie } = s ∧
    (∀ k, (s.csrWrite .sie v).mie.getLsbD k =
      if k ∈ supervisor ∧ s.mideleg.getLsbD k = true then v.getLsbD k else s.mie.getLsbD k) ∧
    { s.csrWrite .sie v with mie := s.mie } = s ∧
    (hasS = true → s.csrWrite .mip v =
      { s with ssip := v.getLsbD 1, stip := v.getLsbD 5, seipSw := v.getLsbD 9 }) ∧
    (hasS = false → s.csrWrite .mip v = s) ∧
    s.csrWrite .sip v = { s with ssip := if s.mideleg.getLsbD 1 then v.getLsbD 1 else s.ssip }

/-- R41: the fields of `mstatus` after a CSR write, bit by bit. That TW exists where S or U does is the model's
reading of two rules that differ (assumption log entry 35). -/
def Obligations.MstatusWrites : Prop :=
  ∀ (s : State) (v : Word),
    let t := s.csrWrite .mstatus v
    let b : Nat → Bool := fun k => (t.csrRead .mstatus).getLsbD k
    let w : Nat → Bool := fun k => v.getLsbD k
    let hasS := s.cfg.hasS
    let hasU := s.cfg.hasU
    let is64 : Bool := s.cfg.xlen == .rv64
    b 3 = w 3 ∧ b 7 = w 7 ∧
    b 1 = (hasS && w 1) ∧ b 5 = (hasS && w 5) ∧ b 8 = (hasS && w 8) ∧ b 18 = (hasS && w 18) ∧
    b 19 = (hasS && w 19) ∧ b 20 = (hasS && w 20) ∧ b 22 = (hasS && w 22) ∧
    b 17 = (hasU && w 17) ∧ b 21 = (hasU && w 21) ∧
    b 13 = (s.cfg.extF && w 13) ∧ b 14 = (s.cfg.extF && w 14) ∧
    t.mstatus.mpp = (if w 12 = false ∧ w 11 = false ∧ hasU = true then .u
      else if w 12 = false ∧ w 11 = true ∧ hasS = true then .s
      else if w 12 = true ∧ w 11 = true then .m else s.mstatus.mpp) ∧
    (b 11 = (t.mstatus.mpp != .u)) ∧ (b 12 = (t.mstatus.mpp == .m)) ∧
    (∀ k ∈ [0, 2, 4, 6, 9, 10, 15, 16, 23, 24, 25, 26, 27, 28, 29, 30], b k = false) ∧
    b (s.cfg.xlen.bits - 1) = (b 13 && b 14) ∧
    (s.cfg.xlen = .rv64 → b 31 = false) ∧
    (∀ k, 36 ≤ k → k < 63 → b k = false) ∧
    b 32 = false ∧ b 33 = (is64 && hasU) ∧ b 34 = false ∧ b 35 = (is64 && hasS)

/-- R42: `sstatus` is a window onto `mstatus`. -/
def Obligations.SstatusIsAWindow : Prop :=
  ∀ (s : State) (v : Word),
    s.csrRead .sstatus = s.csrRead .mstatus &&&
      (match s.cfg.xlen with
       | .rv32 => 0x800DE122
       | .rv64 => 0x80000003000DE122) ∧
    (s.cfg.hasS = true → s.cfg.extF = true →
      let t := s.csrWrite .sstatus v
      (∀ k, k < 64 → k ≠ s.cfg.xlen.bits - 1 →
        (t.csrRead .mstatus).getLsbD k =
          if (0x000C6122#64).getLsbD k then v.getLsbD k else (s.csrRead .mstatus).getLsbD k) ∧
      { t with mstatus := s.mstatus } = s)

/-- R400, for interrupts and exceptions, in the mode of R399. -/
def Obligations.TrapEntryInMode : Prop :=
  ∀ (s : State) (interrupt : Bool) (code : Nat) (tval : Word), AtInstruction s → code < 16 →
    tval.toNat < s.modulus →
    let t := s.trapEntry interrupt code s.pc tval
    let delegated := s.cfg.hasS = true ∧ s.priv ≠ .m ∧
      (if interrupt then s.mideleg else s.medeleg).getLsbD code = true
    (delegated → TrappedS s t interrupt code tval.toNat) ∧
    (¬ delegated → TrappedM s t interrupt code tval.toNat)

/-- `ecall` (R171), `ebreak` (R170), `c.ebreak` (R305): each takes its exception. The privileged instructions raise
IllegalInstruction in a mode that may not execute them (R163). -/
def Obligations.EnvironmentAndPrivilegedInstructionsTrap : Prop :=
  ∀ s : State, AtInstruction s →
    Traps .ecall s (match s.priv with
      | .u => 8
      | .s => 9
      | .m => 11) 0 ∧
    Traps .ebreak s 3 0 ∧ Traps .cEbreak s 3 0 ∧
    ∀ rs1 rs2 : Reg,
      (s.priv ≠ .m → Traps .mret s 2 (s.illegalValue .mret)) ∧
      (s.priv = .u ∨ (s.priv = .s ∧ s.mstatus.tsr = true) → Traps .sret s 2 (s.illegalValue .sret)) ∧
      (s.priv = .u ∨ (s.priv = .s ∧ s.mstatus.tvm = true) →
        Traps (.sfenceVma rs1 rs2) s 2 (s.illegalValue (.sfenceVma rs1 rs2))) ∧
      (s.priv ≠ .m → (s.mstatus.tw = true ∨ (s.priv = .u ∧ s.cfg.hasS = true)) →
        Traps .wfi s 2 (s.illegalValue .wfi))

/-- `mret` (R174) and `sret` (R176) in the modes that may execute them; the returns undo R400's entry (R401). -/
def Obligations.ReturnsRestoreTheMode : Prop :=
  (∀ s : State,
    (s.priv = .m → ∃ t, exec .mret s = .next t ∧
      t.pc = s.mepc ∧ t.priv = s.mstatus.mpp ∧
      t.mstatus = { s.mstatus with
        mie := s.mstatus.mpie, mpie := true, mpp := if s.cfg.hasU then .u else .m } ∧
      t.resv = none ∧ t.minstret = s.minstret + 1 ∧ (∀ r, t.ux r = s.ux r) ∧ SameBytes s t ∧
      { t.still with priv := s.priv, resv := none, mstatus := s.mstatus } = s.still.besideResv) ∧
    (s.priv = .m ∨ (s.priv = .s ∧ s.mstatus.tsr = false) → ∃ t, exec .sret s = .next t ∧
      t.pc = s.sepc ∧ t.priv = (if s.mstatus.spp then .s else .u) ∧
      t.mstatus = { s.mstatus with sie := s.mstatus.spie, spie := true, spp := false } ∧
      t.resv = none ∧ t.minstret = s.minstret + 1 ∧ (∀ r, t.ux r = s.ux r) ∧ SameBytes s t ∧
      { t.still with priv := s.priv, resv := none, mstatus := s.mstatus } = s.still.besideResv)) ∧
  ∀ (s : State) (e : Exc) (tval : Word), AtInstruction s →
    let t := s.takeException e tval
    (¬ s.goesToS e.code →
      ∃ u, exec .mret t = .next u ∧ u.pc = s.pc ∧ u.priv = s.priv ∧
        u.mstatus.mie = s.mstatus.mie ∧ ∀ r, u.ux r = s.ux r) ∧
    (s.goesToS e.code → s.mstatus.tsr = false →
      ∃ u, exec .sret t = .next u ∧ u.pc = s.pc ∧ u.priv = s.priv ∧
        u.mstatus.sie = s.mstatus.sie ∧ ∀ r, u.ux r = s.ux r)

/-- `fence` (R172), `fence.i` (R173), `sfence.vma` (R175) and `wfi` (R177) where they are allowed, and what the
fences order (R71, R75, R79). That `wfi` completes at once, and which address space a fence must name to cover a
write of `satp`, are the model's choice (assumption log entries 17 and 14). -/
def Obligations.FencesCompleteAndOrder : Prop :=
  (∀ (s : State) (fm pred succ : BitVec 4) (imm : BitVec 12) (rs1 rs2 rd : Reg),
    GoesTo (.fence fm pred succ rs1 rd) s (s.pc.toNat + 4) ∧
    (∃ t, exec (.fenceI imm rs1 rd) s = .next t ∧ Retired s t (s.pc.toNat + 4) ∧
      (∀ r, t.ux r = s.ux r) ∧ SameBytes s t ∧ t.besideMem = s.besideMem ∧
      t.mem.stalePte = s.mem.stalePte ∧ ∀ addrs, t.mem.oldCode addrs = []) ∧
    (s.priv = .m ∨ (s.priv = .s ∧ s.mstatus.tvm = false) →
      ∃ t, exec (.sfenceVma rs1 rs2) s = .next t ∧ Retired s t (s.pc.toNat + 4) ∧
        (∀ r, t.ux r = s.ux r) ∧ SameBytes s t ∧ t.besideOld = s.besideOld) ∧
    (s.priv = .m ∨ (s.mstatus.tw = false ∧ ¬ (s.priv = .u ∧ s.cfg.hasS = true)) →
      GoesTo .wfi s (s.pc.toNat + 4))) ∧
  ∀ (s t : State) (rs1 rs2 : Reg) (acc : Access) (v : Word),
    s.priv = .m ∨ (s.priv = .s ∧ s.mstatus.tvm = false) → exec (.sfenceVma rs1 rs2) s = .next t →
    rs1 = 0 ∨ s.ux rs1 / 4096 = v.toNat / 4096 →
    let names : Nat → Prop := fun asid => rs2 = 0 ∨ s.ux rs2 % 2 ^ s.cfg.asidLen = asid
    (∀ asid g a n, names asid →
      let free : Nat → Prop := fun r => rs2 ≠ 0 ∧ (g = true ∨ r.testBit 5 = true)
      (t.pteFor acc v asid g a n = t.bytesAt a n ∨ free (t.pteFor acc v asid g a n)) ∧
      ∀ addrs w,
        let u : State := { t with mem := t.mem.writeAll addrs w }
        let r := u.pteFor acc v asid g a n
        r = u.bytesAt a n ∨ r = t.bytesAt a n ∨ free r) ∧
    (names (satpAsid t.cfg t.satp) → t.satpFor acc v = t.satp ∧
      ∀ w, (t.writeSatp w).satpFor acc v = (t.writeSatp w).satp ∨ (t.writeSatp w).satpFor acc v = t.satp)

/-- No step of U-mode that takes no trap changes what only a higher mode may write (R29, R31); the counters only
advance (R35) and the interrupt inputs are the environment's (R397). -/
def Obligations.UserModeLeavesPrivilegedState : Prop :=
  ∀ s t : State, s.priv = .u → step s = .next t → t.priv = .u → SamePrivileged s t

/-- The mode changes by a trap entry or by a return, and in no other way (R29, R174, R176, R400). -/
def Obligations.ModeChangesOnlyByTrapsAndReturns : Prop :=
  ∀ (i : Instr) (s t : State), exec i s = .next t → t.priv ≠ s.priv →
    (i = .mret ∧ s.priv = .m ∧ t.priv = s.mstatus.mpp) ∨
    (i = .sret ∧ s.priv ≠ .u ∧ t.priv = (if s.mstatus.spp then .s else .u)) ∨
    (t.priv = .m ∧ t.mepc = epcMask s.cfg s.pc ∧ t.pc.toNat = s.handler s.mtvec false 0) ∨
    (t.priv = .s ∧ s.priv ≠ .m ∧ t.sepc = epcMask s.cfg s.pc ∧
      t.pc.toNat = s.handler s.stvec false 0)

/-! ## Floating point -/

/-- The single-precision arithmetic of R225, where floating point is on and the mode is one of the five. -/
def Obligations.SingleArithmeticResults : Prop :=
  ∀ (s : State) (rd rs1 rs2 rs3 : Reg) (rm : BitVec 3) (mode : Rounding), FpReady s rm mode →
    let a := s.bitsS rs1
    let b := s.bitsS rs2
    let c := s.bitsS rs3
    ComputesS (.faddS rd rs1 rs2 rm) s rd (binary32.add a b mode) ∧
    ComputesS (.fsubS rd rs1 rs2 rm) s rd (binary32.sub a b mode) ∧
    ComputesS (.fmulS rd rs1 rs2 rm) s rd (binary32.mul a b mode) ∧
    ComputesS (.fdivS rd rs1 rs2 rm) s rd (binary32.div a b mode) ∧
    ComputesS (.fsqrtS rd rs1 rm) s rd (binary32.sqrt a mode) ∧
    ComputesS (.fmaddS rd rs1 rs2 rs3 rm) s rd (binary32.fma a b c mode) ∧
    ComputesS (.fmsubS rd rs1 rs2 rs3 rm) s rd (binary32.fma a b (binary32.neg c) mode) ∧
    ComputesS (.fnmsubS rd rs1 rs2 rs3 rm) s rd (binary32.fma (binary32.neg a) b c mode) ∧
    ComputesS (.fnmaddS rd rs1 rs2 rs3 rm) s rd
      (binary32.fma (binary32.neg a) b (binary32.neg c) mode)

/-- The double-precision arithmetic of R225, where floating point is on and the mode is one of the five. -/
def Obligations.DoubleArithmeticResults : Prop :=
  ∀ (s : State) (rd rs1 rs2 rs3 : Reg) (rm : BitVec 3) (mode : Rounding), s.cfg.extD = true →
    FpReady s rm mode →
    let a := s.bitsD rs1
    let b := s.bitsD rs2
    let c := s.bitsD rs3
    ComputesD (.faddD rd rs1 rs2 rm) s rd (binary64.add a b mode) ∧
    ComputesD (.fsubD rd rs1 rs2 rm) s rd (binary64.sub a b mode) ∧
    ComputesD (.fmulD rd rs1 rs2 rm) s rd (binary64.mul a b mode) ∧
    ComputesD (.fdivD rd rs1 rs2 rm) s rd (binary64.div a b mode) ∧
    ComputesD (.fsqrtD rd rs1 rm) s rd (binary64.sqrt a mode) ∧
    ComputesD (.fmaddD rd rs1 rs2 rs3 rm) s rd (binary64.fma a b c mode) ∧
    ComputesD (.fmsubD rd rs1 rs2 rs3 rm) s rd (binary64.fma a b (binary64.neg c) mode) ∧
    ComputesD (.fnmsubD rd rs1 rs2 rs3 rm) s rd (binary64.fma (binary64.neg a) b c mode) ∧
    ComputesD (.fnmaddD rd rs1 rs2 rs3 rm) s rd
      (binary64.fma (binary64.neg a) b (binary64.neg c) mode)

/-- The conversions to floating point (R229, R270, R265). -/
def Obligations.ConversionsToFloat : Prop :=
  ∀ (s : State) (rd rs1 : Reg) (rm : BitVec 3) (mode : Rounding), FpReady s rm mode →
    let w := low32 (s.ux rs1)
    let wu : Int := s.ux rs1 % 2 ^ 32
    let l := signedBytes 8 (s.ux rs1)
    let lu : Int := s.ux rs1
    ComputesS (.fcvtSW rd rs1 rm) s rd (binary32.ofInt w mode) ∧
    ComputesS (.fcvtSWu rd rs1 rm) s rd (binary32.ofInt wu mode) ∧
    ComputesS (.fcvtSL rd rs1 rm) s rd (binary32.ofInt l mode) ∧
    ComputesS (.fcvtSLu rd rs1 rm) s rd (binary32.ofInt lu mode) ∧
    (s.cfg.extD = true →
      ComputesS (.fcvtSD rd rs1 rm) s rd (binary32.ofFormat binary64 (s.bitsD rs1) mode) ∧
      ComputesD (.fcvtDS rd rs1 rm) s rd (binary64.ofFormat binary32 (s.bitsS rs1) mode) ∧
      ComputesD (.fcvtDW rd rs1 rm) s rd (binary64.ofInt w mode) ∧
      ComputesD (.fcvtDWu rd rs1 rm) s rd (binary64.ofInt wu mode) ∧
      ComputesD (.fcvtDL rd rs1 rm) s rd (binary64.ofInt l mode) ∧
      ComputesD (.fcvtDLu rd rs1 rm) s rd (binary64.ofInt lu mode))

/-- The conversions to integers (R229), whose 32-bit results are sign-extended, the unsigned ones too. -/
def Obligations.ConversionsToInteger : Prop :=
  ∀ (s : State) (rd rs1 : Reg) (rm : BitVec 3) (mode : Rounding), FpReady s rm mode →
    let fromS := fun t => binary32.toInt (s.bitsS rs1) mode t
    let fromD := fun t => binary64.toInt (s.bitsD rs1) mode t
    ComputesXF (.fcvtWS rd rs1 rm) s rd (low32 (fromS intW).1) (fromS intW).2 ∧
    ComputesXF (.fcvtWuS rd rs1 rm) s rd (low32 (fromS intWU).1) (fromS intWU).2 ∧
    ComputesXF (.fcvtLS rd rs1 rm) s rd (fromS intL).1 (fromS intL).2 ∧
    ComputesXF (.fcvtLuS rd rs1 rm) s rd (fromS intLU).1 (fromS intLU).2 ∧
    ComputesXF (.fcvtWD rd rs1 rm) s rd (low32 (fromD intW).1) (fromD intW).2 ∧
    ComputesXF (.fcvtWuD rd rs1 rm) s rd (low32 (fromD intWU).1) (fromD intWU).2 ∧
    ComputesXF (.fcvtLD rd rs1 rm) s rd (fromD intL).1 (fromD intL).2 ∧
    ComputesXF (.fcvtLuD rd rs1 rm) s rd (fromD intLU).1 (fromD intLU).2

/-- The results that are not rounded (R224, R226): sign injection (R255 to R257, R288 to R290), minimum and
maximum, moves (R251, R283). -/
def Obligations.SignInjectionMinMaxMoves : Prop :=
  ∀ (s : State) (rd rs1 rs2 : Reg), s.mstatus.fs ≠ 0 →
    let a := s.bitsS rs1
    let b := s.bitsS rs2
    let p := s.bitsD rs1
    let q := s.bitsD rs2
    ComputesS (.fsgnjS rd rs1 rs2) s rd (b / 2 ^ 31 * 2 ^ 31 + a % 2 ^ 31, 0) ∧
    ComputesS (.fsgnjnS rd rs1 rs2) s rd ((1 - b / 2 ^ 31) * 2 ^ 31 + a % 2 ^ 31, 0) ∧
    ComputesS (.fsgnjxS rd rs1 rs2) s rd ((a / 2 ^ 31 + b / 2 ^ 31) % 2 * 2 ^ 31 + a % 2 ^ 31, 0) ∧
    ComputesS (.fminS rd rs1 rs2) s rd (binary32.min a b) ∧
    ComputesS (.fmaxS rd rs1 rs2) s rd (binary32.max a b) ∧
    ComputesS (.fmvWX rd rs1) s rd (s.ux rs1 % 2 ^ 32, 0) ∧
    (s.cfg.extD = true →
      ComputesD (.fsgnjD rd rs1 rs2) s rd (q / 2 ^ 63 * 2 ^ 63 + p % 2 ^ 63, 0) ∧
      ComputesD (.fsgnjnD rd rs1 rs2) s rd ((1 - q / 2 ^ 63) * 2 ^ 63 + p % 2 ^ 63, 0) ∧
      ComputesD (.fsgnjxD rd rs1 rs2) s rd ((p / 2 ^ 63 + q / 2 ^ 63) % 2 * 2 ^ 63 + p % 2 ^ 63, 0) ∧
      ComputesD (.fminD rd rs1 rs2) s rd (binary64.min p q) ∧
      ComputesD (.fmaxD rd rs1 rs2) s rd (binary64.max p q) ∧
      ComputesD (.fmvDX rd rs1) s rd (s.ux rs1, 0))

/-- The comparisons (R227), `fclass` (R228) and the moves to x registers (R252, R284). -/
def Obligations.CompareClassifyMovesToInteger : Prop :=
  ∀ (s : State) (rd rs1 rs2 : Reg), s.mstatus.fs ≠ 0 →
    let a := s.bitsS rs1
    let b := s.bitsS rs2
    let p := s.bitsD rs1
    let q := s.bitsD rs2
    ComputesXF (.feqS rd rs1 rs2) s rd (binary32.eq a b).1 (binary32.eq a b).2 ∧
    ComputesXF (.fltS rd rs1 rs2) s rd (binary32.lt a b).1 (binary32.lt a b).2 ∧
    ComputesXF (.fleS rd rs1 rs2) s rd (binary32.le a b).1 (binary32.le a b).2 ∧
    ComputesXF (.fclassS rd rs1) s rd (binary32.classify a) 0 ∧
    ComputesXF (.fmvXW rd rs1) s rd (low32 (s.getF rs1).toNat) 0 ∧
    ComputesXF (.feqD rd rs1 rs2) s rd (binary64.eq p q).1 (binary64.eq p q).2 ∧
    ComputesXF (.fltD rd rs1 rs2) s rd (binary64.lt p q).1 (binary64.lt p q).2 ∧
    ComputesXF (.fleD rd rs1 rs2) s rd (binary64.le p q).1 (binary64.le p q).2 ∧
    ComputesXF (.fclassD rd rs1) s rd (binary64.classify p) 0 ∧
    ComputesXF (.fmvXD rd rs1) s rd (s.getF rs1).toNat 0

/-- `flw`, `fld`, `fsw`, `fsd` and their compressed forms, translated or not (R245, R277, R260, R287, R306 to R313). -/
def Obligations.FloatLoadsAndStores : Prop :=
  ∀ (s : State) (rd rs2 rs1 : Reg) (imm : BitVec 12) (rd' rs1' rs2' : CReg) (o5 : BitVec 5)
    (o6 : BitVec 6) (p : Nat), s.mstatus.fs ≠ 0 →
    let loads4 : Instr → Reg → Nat → Nat → Prop := fun i r a len => Reaches s .load a 4 p →
      ∃ t, exec i s = .next t ∧ WroteF s t r (s.boxed (s.bytesAt p 4)) 0 len
    let loads8 : Instr → Reg → Nat → Nat → Prop := fun i r a len => s.cfg.extD = true →
      Reaches s .load a 8 p → ∃ t, exec i s = .next t ∧ WroteF s t r (s.bytesAt p 8) 0 len
    let stores : Instr → Reg → Nat → Nat → Nat → Prop := fun i r a n len => Reaches s .store a n p →
      Stores i s p n (s.getF r).toNat len
    let a := s.dataAddress rs1 imm.toInt
    let a4 := s.dataAddress rs1'.reg (4 * o5.toNat)
    let a8 := s.dataAddress rs1'.reg (8 * o5.toNat)
    let s4 := s.dataAddress 2 (4 * o6.toNat)
    let s8 := s.dataAddress 2 (8 * o6.toNat)
    loads4 (.flw rd rs1 imm) rd a 4 ∧ loads4 (.cFlw rd' rs1' o5) rd'.reg a4 2 ∧
    loads4 (.cFlwsp rd o6) rd s4 2 ∧
    loads8 (.fld rd rs1 imm) rd a 4 ∧ loads8 (.cFld rd' rs1' o5) rd'.reg a8 2 ∧
    loads8 (.cFldsp rd o6) rd s8 2 ∧
    stores (.fsw rs2 rs1 imm) rs2 a 4 4 ∧ stores (.cFsw rs2' rs1' o5) rs2'.reg a4 4 2 ∧
    stores (.cFswsp rs2 o6) rs2 s4 4 2 ∧
    stores (.fsd rs2 rs1 imm) rs2 a 8 4 ∧ stores (.cFsd rs2' rs1' o5) rs2'.reg a8 8 2 ∧
    stores (.cFsdsp rs2 o6) rs2 s8 8 2

/-- `FPCheck` (R221) begins every floating-point instruction; `RoundingMode` (R222) raises for a reserved mode. -/
def Obligations.FloatingPointOffAndReservedRoundingTrap : Prop :=
  ∀ (s : State) (i : Instr), AtInstruction s →
    (s.mstatus.fs = 0 → i.usesFp = true → Traps i s 2 (s.illegalValue i)) ∧
    ∀ rm : BitVec 3, i.rm? = some rm → (rm = 5 ∨ rm = 6 ∨ (rm = 7 ∧ 5 ≤ s.frm.toNat)) →
      Traps i s 2 (s.illegalValue i)

/-- NaN boxing (R27). -/
def Obligations.SingleNumbersAreBoxed : Prop :=
  ∀ (s : State) (r : Reg) (v : BitVec 32),
    (s.cfg.flen64 = true →
      (s.setS r v).getF r = 0xFFFFFFFF#32 ++ v ∧
      s.getS r = if (s.getF r).extractLsb' 32 32 = 0xFFFFFFFF#32 then (s.getF r).extractLsb' 0 32
        else 0x7FC00000#32) ∧
    (s.cfg.flen64 = false →
      ((s.setS r v).getF r).extractLsb' 0 32 = v ∧ s.getS r = (s.getF r).extractLsb' 0 32)

/-- Step 1 of R223 and step 2 of R229: rounding an exact quotient, or an exact square root, in a direction. -/
def Obligations.RoundingFollowsTheDirection : Prop :=
  (∀ (num den : Nat) (exp q : Int) (mode : Rounding) (neg : Bool), 0 < den →
    let r := (Magnitude.quot num den exp).roundAt mode neg q
    let x : ℚ := quotient num den (exp - q)
    RoundedTo mode neg x r.1 ∧ (r.2 = false ↔ x = r.1)) ∧
  ∀ (rad : Nat) (exp q : Int) (mode : Rounding),
    let r := (Magnitude.root rad exp).roundAt mode false q
    let x : ℚ := rad * 4 ^ (exp - q)
    RootRoundedTo mode x r.1 ∧ (r.2 = false ↔ x = (r.1 : ℚ) ^ 2)

/-- R227: the comparison is of the real values, and of NaNs it is false. The model compares bit patterns (DEDUCED,
assumption log entry 19). -/
def Obligations.ComparisonsFollowTheReals : Prop :=
  ∀ (F : Format), F = binary32 ∨ F = binary64 → ∀ a b : Nat, a < 2 * F.signBit → b < 2 * F.signBit →
    let A := F.datum a
    let B := F.datum b
    (A.isNaN = true ∨ B.isNaN = true →
      F.lt a b = (0, 0b10000) ∧ F.le a b = (0, 0b10000) ∧ F.eq a b = (0, nanFlags [A, B])) ∧
    ∀ x y, A.extended = some x → B.extended = some y →
      (x < y → F.lt a b = (1, 0)) ∧ (¬ x < y → F.lt a b = (0, 0)) ∧
      (x ≤ y → F.le a b = (1, 0)) ∧ (¬ x ≤ y → F.le a b = (0, 0)) ∧
      (x = y → F.eq a b = (1, 0)) ∧ (x ≠ y → F.eq a b = (0, 0))

/-- R225 and R229 on finite operands: the exact result, rounded once, with the bits and the flags of R223, all steps
(`Format.Rounds`, and `Format.RootRounds` for the square root). -/
def Obligations.FiniteResultsAreExactValuesRounded : Prop :=
  ∀ (F : Format), F = binary32 ∨ F = binary64 →
    (∀ (neg : Bool) (num den : Nat) (exp : Int) (mode : Rounding), 0 < num → 0 < den →
      F.Rounds mode neg (quotient num den exp) (F.round neg (.quot num den exp) mode)) ∧
    (∀ (a b c : Nat) (x y z : ℚ) (mode : Rounding), a < 2 * F.signBit → b < 2 * F.signBit →
      c < 2 * F.signBit → (F.datum a).value = some x → (F.datum b).value = some y →
      (F.datum c).value = some z →
      let rounds : FpResult → ℚ → Prop := fun r v => v ≠ 0 → F.Rounds mode (decide (v < 0)) |v| r
      rounds (F.add a b mode) (x + y) ∧ rounds (F.sub a b mode) (x - y) ∧
      rounds (F.mul a b mode) (x * y) ∧ (y ≠ 0 → rounds (F.div a b mode) (x / y)) ∧
      rounds (F.fma a b c mode) (x * y + z) ∧
      (0 < x → F.RootRounds mode x (F.sqrt a mode)) ∧
      (∀ n : Int, rounds (F.ofInt n mode) n) ∧
      ∀ G : Format, (G = binary32 ∨ G = binary64) →
        ∀ (d : Nat) (w : ℚ), d < 2 * G.signBit → (G.datum d).value = some w →
          rounds (F.ofFormat G d mode) w) ∧
    ∀ (a : Nat) (x : ℚ) (mode : Rounding), a < 2 ^ 32 → (binary32.datum a).value = some x →
      (binary64.datum (binary64.ofFormat binary32 a mode).1).value = some x ∧
      (binary64.ofFormat binary32 a mode).2 = 0

/-- R225 where the result is not a rounded number: the NaN step (R224), infinities, zeros, DZ; with the two
conversions to a format. -/
def Obligations.ArithmeticSpecialCases : Prop :=
  ∀ (F : Format), F = binary32 ∨ F = binary64 → ∀ (a b c : Nat) (mode : Rounding), a < 2 * F.signBit →
    b < 2 * F.signBit → c < 2 * F.signBit →
    let A := F.datum a
    let B := F.datum b
    let C := F.datum c
    let nan := if F = binary32 then 0x7FC00000 else 0x7FF8000000000000
    let infinity := if F = binary32 then 0x7F800000 else 0x7FF0000000000000
    let signed : Bool → Nat → Nat := fun neg m => if neg then F.signBit + m else m
    let sgn : Nat → Bool := fun a => decide (F.signBit ≤ a)
    let sp := sgn a != sgn b
    let invalid : FpResult := (nan, 0b10000)
    let zeroSum : FpResult := (signed (mode == .rdn) 0, 0)
    let isInf : Datum → Prop := fun d => ∃ n, d = .inf n
    let isZero : Datum → Prop := fun d => ∃ n, d = .zero n
    let finite : Datum → Prop := fun d => d.value.isSome = true
    F.sub a b mode = F.add a ((b + F.signBit) % (2 * F.signBit)) mode ∧
    (A.isNaN = true ∨ B.isNaN = true →
      let r : FpResult := (nan, nanFlags [A, B])
      F.add a b mode = r ∧ F.sub a b mode = r ∧ F.mul a b mode = r ∧ F.div a b mode = r) ∧
    (isInf A → isInf B →
      F.add a b mode = (if sp then invalid else (a, 0)) ∧
      F.mul a b mode = (signed sp infinity, 0) ∧ F.div a b mode = invalid) ∧
    (isInf A → finite B →
      F.add a b mode = (a, 0) ∧ F.add b a mode = (a, 0) ∧
      F.mul a b mode = F.mul b a mode ∧ (isZero B → F.mul a b mode = invalid) ∧
      (¬ isZero B → F.mul a b mode = (signed sp infinity, 0)) ∧
      F.div a b mode = (signed sp infinity, 0) ∧ F.div b a mode = (signed sp 0, 0)) ∧
    (isZero A → isZero B →
      F.add a b mode = (if sp then zeroSum else (a, 0)) ∧ F.div a b mode = invalid) ∧
    (∀ x y, A.value = some x → B.value = some y → x ≠ 0 → x + y = 0 → F.add a b mode = zeroSum) ∧
    (isZero A → finite B →
      F.mul a b mode = (signed sp 0, 0) ∧ F.mul b a mode = (signed sp 0, 0) ∧
      (¬ isZero B → F.div a b mode = (signed sp 0, 0) ∧
        F.div b a mode = (signed sp infinity, 0b01000))) ∧
    ((A.isNaN = true → F.sqrt a mode = (nan, nanFlags [A])) ∧
      (isZero A ∨ a = infinity → F.sqrt a mode = (a, 0)) ∧
      (A.isNaN = false → ¬ isZero A → sgn a = true → F.sqrt a mode = invalid)) ∧
    ((isInf A ∧ isZero B ∨ isZero A ∧ isInf B → F.fma a b c mode = invalid) ∧
      (¬ (isInf A ∧ isZero B ∨ isZero A ∧ isInf B) →
        (A.isNaN = true ∨ B.isNaN = true ∨ C.isNaN = true →
          F.fma a b c mode = (nan, nanFlags [A, B, C])) ∧
        (A.isNaN = false → B.isNaN = false → C.isNaN = false → isInf A ∨ isInf B →
          F.fma a b c mode = (if C = .inf (!sp) then invalid else (signed sp infinity, 0)))) ∧
      (finite A → finite B → isInf C → F.fma a b c mode = (c, 0)) ∧
      ∀ x y z, A.value = some x → B.value = some y → C.value = some z → x * y + z = 0 →
        F.fma a b c mode = (if x * y = 0 ∧ sgn c = sp then (c, 0) else zeroSum)) ∧
    F.ofInt 0 mode = (0, 0) ∧
    ∀ G : Format, (G = binary32 ∨ G = binary64) → ∀ d : Nat, d < 2 * G.signBit →
      ((G.datum d).isNaN = true → F.ofFormat G d mode = (nan, nanFlags [G.datum d])) ∧
      ∀ n, (G.datum d = .inf n → F.ofFormat G d mode = (signed n infinity, 0)) ∧
        (G.datum d = .zero n → F.ofFormat G d mode = (signed n 0, 0))

/-- R226, R228 and R229 on every operand. -/
def Obligations.MinMaxClassifyAndToIntegerResults : Prop :=
  ∀ (F : Format), F = binary32 ∨ F = binary64 → ∀ a b : Nat, a < 2 * F.signBit → b < 2 * F.signBit →
    let A := F.datum a
    let B := F.datum b
    let nan := if F = binary32 then 0x7FC00000 else 0x7FF8000000000000
    let sgn : Nat → Bool := fun a => decide (F.signBit ≤ a)
    let fl := nanFlags [A, B]
    (A.isNaN = true → B.isNaN = true → F.min a b = (nan, fl) ∧ F.max a b = (nan, fl)) ∧
    (A.isNaN = true → B.isNaN = false → F.min a b = (b, fl) ∧ F.max a b = (b, fl)) ∧
    (A.isNaN = false → B.isNaN = true → F.min a b = (a, fl) ∧ F.max a b = (a, fl)) ∧
    (∀ x y, A.extended = some x → B.extended = some y →
      (x < y → F.min a b = (a, 0) ∧ F.max a b = (b, 0)) ∧
      (y < x → F.min a b = (b, 0) ∧ F.max a b = (a, 0)) ∧
      (x = y → F.min a b = (if sgn a then a else b, 0) ∧ F.max a b = (if sgn a then b else a, 0))) ∧
    (let e := a / 2 ^ F.fracBits % 2 ^ F.expBits
     let m := a % 2 ^ F.fracBits
     F.classify a = 2 ^ (if e = 2 ^ F.expBits - 1 then
         if m = 0 then (if sgn a then 0 else 7) else if m < 2 ^ (F.fracBits - 1) then 8 else 9
       else if e = 0 then
         if m = 0 then (if sgn a then 3 else 4) else (if sgn a then 2 else 5)
       else (if sgn a then 1 else 6))) ∧
    ∀ (mode : Rounding) (t : IntType) (lo hi : Int),
      (t, lo, hi) ∈ [(intW, -2 ^ 31, 2 ^ 31 - 1), (intWU, 0, 2 ^ 32 - 1), (intL, -2 ^ 63, 2 ^ 63 - 1),
        (intLU, 0, 2 ^ 64 - 1)] →
      (A.isNaN = true ∨ A = .inf false → F.toInt a mode t = (hi, 0b10000)) ∧
      (A = .inf true → F.toInt a mode t = (lo, 0b10000)) ∧
      ∀ x, A.value = some x → ∃ n : Nat, RoundedTo mode (decide (x < 0)) |x| n ∧
        let k : Int := if x < 0 then -(n : Int) else n
        F.toInt a mode t = if k < lo then (lo, 0b10000) else if hi < k then (hi, 0b10000)
          else (k, if (k : ℚ) = x then 0 else 0b00001)

/-! ## Compressed instructions -/

/-- The compressed computations (R295 to R302, R320, R321, R324, R325, R328 to R332, R335). -/
def Obligations.CompressedArithmeticResults : Prop :=
  ∀ (s : State) (rd rs2 : Reg) (rd' rs2' : CReg) (imm : BitVec 6) (wide : BitVec 8),
    let d := rd'.reg
    let r := rs2'.reg
    Computes (.cAdd rd rs2) s rd (s.ux rd + s.ux rs2) 2 ∧
    Computes (.cAddi rd imm) s rd (s.ux rd + imm.toInt) 2 ∧
    Computes (.cAddi16sp imm) s 2 (s.ux 2 + 16 * imm.toInt) 2 ∧
    Computes (.cAddi4spn rd' wide) s d (s.ux 2 + 4 * wide.toNat) 2 ∧
    Computes (.cAddiw rd imm) s rd (low32 (s.ux rd + imm.toInt)) 2 ∧
    Computes (.cAddw rd' rs2') s d (low32 (s.ux d + s.ux r)) 2 ∧
    Computes (.cAnd rd' rs2') s d (s.ux d &&& s.ux r : Nat) 2 ∧
    Computes (.cAndi rd' imm) s d (s.ux d &&& s.wrap imm.toInt : Nat) 2 ∧
    Computes (.cLi rd imm) s rd imm.toInt 2 ∧
    Computes (.cLui rd imm) s rd (4096 * imm.toInt) 2 ∧
    Computes (.cMv rd rs2) s rd (s.ux rs2) 2 ∧
    Computes (.cOr rd' rs2') s d (s.ux d ||| s.ux r : Nat) 2 ∧
    Computes (.cSlli rd imm) s rd (s.ux rd * 2 ^ imm.toNat) 2 ∧
    Computes (.cSrai rd' imm) s d (s.sx d / 2 ^ imm.toNat) 2 ∧
    Computes (.cSrli rd' imm) s d (s.ux d / 2 ^ imm.toNat) 2 ∧
    Computes (.cSub rd' rs2') s d (s.ux d - s.ux r) 2 ∧
    Computes (.cSubw rd' rs2') s d (low32 (s.ux d - s.ux r)) 2 ∧
    Computes (.cXor rd' rs2') s d (s.ux d ^^^ s.ux r : Nat) 2

/-- `c.beqz`, `c.bnez`, `c.j`, `c.jal`, `c.jr`, `c.jalr` (R303, R304, R314 to R317). -/
def Obligations.CompressedControlResults : Prop :=
  ∀ (s : State) (rs1 : Reg) (rs1' : CReg) (off : BitVec 8) (far : BitVec 11),
    let r := rs1'.reg
    let near : Int := s.pc.toNat + 2 * off.toInt
    let jump : Int := s.pc.toNat + 2 * far.toInt
    let indirect : Int := (s.ux rs1 / 2 * 2 : Nat)
    GoesTo (.cBeqz rs1' off) s (if s.ux r = 0 then near else s.pc.toNat + 2) ∧
    GoesTo (.cBnez rs1' off) s (if s.ux r = 0 then s.pc.toNat + 2 else near) ∧
    GoesTo (.cJ far) s jump ∧
    (∃ t, exec (.cJal far) s = .next t ∧ WroteX s t 1 (s.pc.toNat + 2) jump) ∧
    GoesTo (.cJr rs1) s indirect ∧
    (∃ t, exec (.cJalr rs1) s = .next t ∧ WroteX s t 1 (s.pc.toNat + 2) indirect)

/-- `c.lw`, `c.ld`, `c.lwsp`, `c.ldsp`, `c.sw`, `c.sd`, `c.swsp`, `c.sdsp` (R318, R319, R322, R323, R326,
R327, R333, R334). -/
def Obligations.CompressedLoadsAndStores : Prop :=
  ∀ (s : State) (rd rs2 : Reg) (rd' rs1' rs2' : CReg) (o5 : BitVec 5) (o6 : BitVec 6) (p : Nat),
    let a4 := s.dataAddress rs1'.reg (4 * o5.toNat)
    let a8 := s.dataAddress rs1'.reg (8 * o5.toNat)
    let s4 := s.dataAddress 2 (4 * o6.toNat)
    let s8 := s.dataAddress 2 (8 * o6.toNat)
    (Reaches s .load a4 4 p →
      Computes (.cLw rd' rs1' o5) s rd'.reg (signedBytes 4 (s.bytesAt p 4)) 2) ∧
    (Reaches s .load a8 8 p → Computes (.cLd rd' rs1' o5) s rd'.reg (s.bytesAt p 8) 2) ∧
    (Reaches s .load s4 4 p → Computes (.cLwsp rd o6) s rd (signedBytes 4 (s.bytesAt p 4)) 2) ∧
    (Reaches s .load s8 8 p → Computes (.cLdsp rd o6) s rd (s.bytesAt p 8) 2) ∧
    (Reaches s .store a4 4 p → Stores (.cSw rs2' rs1' o5) s p 4 (s.ux rs2'.reg) 2) ∧
    (Reaches s .store a8 8 p → Stores (.cSd rs2' rs1' o5) s p 8 (s.ux rs2'.reg) 2) ∧
    (Reaches s .store s4 4 p → Stores (.cSwsp rs2 o6) s p 4 (s.ux rs2) 2) ∧
    (Reaches s .store s8 8 p → Stores (.cSdsp rs2 o6) s p 8 (s.ux rs2) 2)
end

