-- ==== Sys2Proof/Laws/State.lean ====
section
/-! SUPPORT. What each named update of the state leaves in each field: one lemma per field per update, so
that no proof unfolds a record update. -/

namespace Sys2Proof.Machine

open Sys2Proof

/-! ## `setX` -/

@[simp] theorem State.setX_cfg (s : State) (r : Reg) (v : Word) :
    (s.setX r v).cfg = s.cfg := by
  unfold State.setX; split <;> rfl

@[simp] theorem State.setX_f (s : State) (r : Reg) (v : Word) :
    (s.setX r v).f = s.f := by
  unfold State.setX; split <;> rfl

@[simp] theorem State.setX_pc (s : State) (r : Reg) (v : Word) :
    (s.setX r v).pc = s.pc := by
  unfold State.setX; split <;> rfl

@[simp] theorem State.setX_priv (s : State) (r : Reg) (v : Word) :
    (s.setX r v).priv = s.priv := by
  unfold State.setX; split <;> rfl

@[simp] theorem State.setX_mstatus (s : State) (r : Reg) (v : Word) :
    (s.setX r v).mstatus = s.mstatus := by
  unfold State.setX; split <;> rfl

@[simp] theorem State.setX_fflags (s : State) (r : Reg) (v : Word) :
    (s.setX r v).fflags = s.fflags := by
  unfold State.setX; split <;> rfl

@[simp] theorem State.setX_frm (s : State) (r : Reg) (v : Word) :
    (s.setX r v).frm = s.frm := by
  unfold State.setX; split <;> rfl

@[simp] theorem State.setX_mtvec (s : State) (r : Reg) (v : Word) :
    (s.setX r v).mtvec = s.mtvec := by
  unfold State.setX; split <;> rfl

@[simp] theorem State.setX_stvec (s : State) (r : Reg) (v : Word) :
    (s.setX r v).stvec = s.stvec := by
  unfold State.setX; split <;> rfl

@[simp] theorem State.setX_medeleg (s : State) (r : Reg) (v : Word) :
    (s.setX r v).medeleg = s.medeleg := by
  unfold State.setX; split <;> rfl

@[simp] theorem State.setX_mideleg (s : State) (r : Reg) (v : Word) :
    (s.setX r v).mideleg = s.mideleg := by
  unfold State.setX; split <;> rfl

@[simp] theorem State.setX_mie (s : State) (r : Reg) (v : Word) :
    (s.setX r v).mie = s.mie := by
  unfold State.setX; split <;> rfl

@[simp] theorem State.setX_ssip (s : State) (r : Reg) (v : Word) :
    (s.setX r v).ssip = s.ssip := by
  unfold State.setX; split <;> rfl

@[simp] theorem State.setX_stip (s : State) (r : Reg) (v : Word) :
    (s.setX r v).stip = s.stip := by
  unfold State.setX; split <;> rfl

@[simp] theorem State.setX_seipSw (s : State) (r : Reg) (v : Word) :
    (s.setX r v).seipSw = s.seipSw := by
  unfold State.setX; split <;> rfl

@[simp] theorem State.setX_irq (s : State) (r : Reg) (v : Word) :
    (s.setX r v).irq = s.irq := by
  unfold State.setX; split <;> rfl

@[simp] theorem State.setX_mcounteren (s : State) (r : Reg) (v : Word) :
    (s.setX r v).mcounteren = s.mcounteren := by
  unfold State.setX; split <;> rfl

@[simp] theorem State.setX_scounteren (s : State) (r : Reg) (v : Word) :
    (s.setX r v).scounteren = s.scounteren := by
  unfold State.setX; split <;> rfl

@[simp] theorem State.setX_mscratch (s : State) (r : Reg) (v : Word) :
    (s.setX r v).mscratch = s.mscratch := by
  unfold State.setX; split <;> rfl

@[simp] theorem State.setX_sscratch (s : State) (r : Reg) (v : Word) :
    (s.setX r v).sscratch = s.sscratch := by
  unfold State.setX; split <;> rfl

@[simp] theorem State.setX_mepc (s : State) (r : Reg) (v : Word) :
    (s.setX r v).mepc = s.mepc := by
  unfold State.setX; split <;> rfl

@[simp] theorem State.setX_sepc (s : State) (r : Reg) (v : Word) :
    (s.setX r v).sepc = s.sepc := by
  unfold State.setX; split <;> rfl

@[simp] theorem State.setX_mcause (s : State) (r : Reg) (v : Word) :
    (s.setX r v).mcause = s.mcause := by
  unfold State.setX; split <;> rfl

@[simp] theorem State.setX_scause (s : State) (r : Reg) (v : Word) :
    (s.setX r v).scause = s.scause := by
  unfold State.setX; split <;> rfl

@[simp] theorem State.setX_mtval (s : State) (r : Reg) (v : Word) :
    (s.setX r v).mtval = s.mtval := by
  unfold State.setX; split <;> rfl

@[simp] theorem State.setX_stval (s : State) (r : Reg) (v : Word) :
    (s.setX r v).stval = s.stval := by
  unfold State.setX; split <;> rfl

@[simp] theorem State.setX_satp (s : State) (r : Reg) (v : Word) :
    (s.setX r v).satp = s.satp := by
  unfold State.setX; split <;> rfl

@[simp] theorem State.setX_mcycle (s : State) (r : Reg) (v : Word) :
    (s.setX r v).mcycle = s.mcycle := by
  unfold State.setX; split <;> rfl

@[simp] theorem State.setX_mcycleFrom (s : State) (r : Reg) (v : Word) :
    (s.setX r v).mcycleFrom = s.mcycleFrom := by
  unfold State.setX; split <;> rfl

@[simp] theorem State.setX_minstret (s : State) (r : Reg) (v : Word) :
    (s.setX r v).minstret = s.minstret := by
  unfold State.setX; split <;> rfl

@[simp] theorem State.setX_resv (s : State) (r : Reg) (v : Word) :
    (s.setX r v).resv = s.resv := by
  unfold State.setX; split <;> rfl

@[simp] theorem State.setX_mem (s : State) (r : Reg) (v : Word) :
    (s.setX r v).mem = s.mem := by
  unfold State.setX; split <;> rfl

@[simp] theorem State.setX_staleSatp (s : State) (r : Reg) (v : Word) :
    (s.setX r v).staleSatp = s.staleSatp := by
  unfold State.setX; split <;> rfl

@[simp] theorem State.setX_tick (s : State) (r : Reg) (v : Word) :
    (s.setX r v).tick = s.tick := by
  unfold State.setX; split <;> rfl

@[simp] theorem State.setX_env (s : State) (r : Reg) (v : Word) :
    (s.setX r v).env = s.env := by
  unfold State.setX; split <;> rfl

@[simp] theorem State.setX_beforeFetch (s : State) (r : Reg) (v : Word) :
    (s.setX r v).beforeFetch = s.beforeFetch := by
  unfold State.setX; split <;> rfl


/-! ## `setF` -/

@[simp] theorem State.setF_cfg (s : State) (r : Reg) (v : Word) :
    (s.setF r v).cfg = s.cfg := rfl

@[simp] theorem State.setF_x (s : State) (r : Reg) (v : Word) :
    (s.setF r v).x = s.x := rfl

@[simp] theorem State.setF_pc (s : State) (r : Reg) (v : Word) :
    (s.setF r v).pc = s.pc := rfl

@[simp] theorem State.setF_priv (s : State) (r : Reg) (v : Word) :
    (s.setF r v).priv = s.priv := rfl

@[simp] theorem State.setF_fflags (s : State) (r : Reg) (v : Word) :
    (s.setF r v).fflags = s.fflags := rfl

@[simp] theorem State.setF_frm (s : State) (r : Reg) (v : Word) :
    (s.setF r v).frm = s.frm := rfl

@[simp] theorem State.setF_mtvec (s : State) (r : Reg) (v : Word) :
    (s.setF r v).mtvec = s.mtvec := rfl

@[simp] theorem State.setF_stvec (s : State) (r : Reg) (v : Word) :
    (s.setF r v).stvec = s.stvec := rfl

@[simp] theorem State.setF_medeleg (s : State) (r : Reg) (v : Word) :
    (s.setF r v).medeleg = s.medeleg := rfl

@[simp] theorem State.setF_mideleg (s : State) (r : Reg) (v : Word) :
    (s.setF r v).mideleg = s.mideleg := rfl

@[simp] theorem State.setF_mie (s : State) (r : Reg) (v : Word) :
    (s.setF r v).mie = s.mie := rfl

@[simp] theorem State.setF_ssip (s : State) (r : Reg) (v : Word) :
    (s.setF r v).ssip = s.ssip := rfl

@[simp] theorem State.setF_stip (s : State) (r : Reg) (v : Word) :
    (s.setF r v).stip = s.stip := rfl

@[simp] theorem State.setF_seipSw (s : State) (r : Reg) (v : Word) :
    (s.setF r v).seipSw = s.seipSw := rfl

@[simp] theorem State.setF_irq (s : State) (r : Reg) (v : Word) :
    (s.setF r v).irq = s.irq := rfl

@[simp] theorem State.setF_mcounteren (s : State) (r : Reg) (v : Word) :
    (s.setF r v).mcounteren = s.mcounteren := rfl

@[simp] theorem State.setF_scounteren (s : State) (r : Reg) (v : Word) :
    (s.setF r v).scounteren = s.scounteren := rfl

@[simp] theorem State.setF_mscratch (s : State) (r : Reg) (v : Word) :
    (s.setF r v).mscratch = s.mscratch := rfl

@[simp] theorem State.setF_sscratch (s : State) (r : Reg) (v : Word) :
    (s.setF r v).sscratch = s.sscratch := rfl

@[simp] theorem State.setF_mepc (s : State) (r : Reg) (v : Word) :
    (s.setF r v).mepc = s.mepc := rfl

@[simp] theorem State.setF_sepc (s : State) (r : Reg) (v : Word) :
    (s.setF r v).sepc = s.sepc := rfl

@[simp] theorem State.setF_mcause (s : State) (r : Reg) (v : Word) :
    (s.setF r v).mcause = s.mcause := rfl

@[simp] theorem State.setF_scause (s : State) (r : Reg) (v : Word) :
    (s.setF r v).scause = s.scause := rfl

@[simp] theorem State.setF_mtval (s : State) (r : Reg) (v : Word) :
    (s.setF r v).mtval = s.mtval := rfl

@[simp] theorem State.setF_stval (s : State) (r : Reg) (v : Word) :
    (s.setF r v).stval = s.stval := rfl

@[simp] theorem State.setF_satp (s : State) (r : Reg) (v : Word) :
    (s.setF r v).satp = s.satp := rfl

@[simp] theorem State.setF_mcycle (s : State) (r : Reg) (v : Word) :
    (s.setF r v).mcycle = s.mcycle := rfl

@[simp] theorem State.setF_mcycleFrom (s : State) (r : Reg) (v : Word) :
    (s.setF r v).mcycleFrom = s.mcycleFrom := rfl

@[simp] theorem State.setF_minstret (s : State) (r : Reg) (v : Word) :
    (s.setF r v).minstret = s.minstret := rfl

@[simp] theorem State.setF_resv (s : State) (r : Reg) (v : Word) :
    (s.setF r v).resv = s.resv := rfl

@[simp] theorem State.setF_mem (s : State) (r : Reg) (v : Word) :
    (s.setF r v).mem = s.mem := rfl

@[simp] theorem State.setF_staleSatp (s : State) (r : Reg) (v : Word) :
    (s.setF r v).staleSatp = s.staleSatp := rfl

@[simp] theorem State.setF_tick (s : State) (r : Reg) (v : Word) :
    (s.setF r v).tick = s.tick := rfl

@[simp] theorem State.setF_env (s : State) (r : Reg) (v : Word) :
    (s.setF r v).env = s.env := rfl

@[simp] theorem State.setF_beforeFetch (s : State) (r : Reg) (v : Word) :
    (s.setF r v).beforeFetch = s.beforeFetch := rfl

@[simp] theorem State.setF_mstatus (s : State) (r : Reg) (v : Word) :
    (s.setF r v).mstatus = { s.mstatus with fs := 3 } := rfl

/-! ## `count` -/

@[simp] theorem State.count_cfg (s : State) :
    (s.count).cfg = s.cfg := rfl

@[simp] theorem State.count_x (s : State) :
    (s.count).x = s.x := rfl

@[simp] theorem State.count_f (s : State) :
    (s.count).f = s.f := rfl

@[simp] theorem State.count_pc (s : State) :
    (s.count).pc = s.pc := rfl

@[simp] theorem State.count_priv (s : State) :
    (s.count).priv = s.priv := rfl

@[simp] theorem State.count_mstatus (s : State) :
    (s.count).mstatus = s.mstatus := rfl

@[simp] theorem State.count_fflags (s : State) :
    (s.count).fflags = s.fflags := rfl

@[simp] theorem State.count_frm (s : State) :
    (s.count).frm = s.frm := rfl

@[simp] theorem State.count_mtvec (s : State) :
    (s.count).mtvec = s.mtvec := rfl

@[simp] theorem State.count_stvec (s : State) :
    (s.count).stvec = s.stvec := rfl

@[simp] theorem State.count_medeleg (s : State) :
    (s.count).medeleg = s.medeleg := rfl

@[simp] theorem State.count_mideleg (s : State) :
    (s.count).mideleg = s.mideleg := rfl

@[simp] theorem State.count_mie (s : State) :
    (s.count).mie = s.mie := rfl

@[simp] theorem State.count_ssip (s : State) :
    (s.count).ssip = s.ssip := rfl

@[simp] theorem State.count_stip (s : State) :
    (s.count).stip = s.stip := rfl

@[simp] theorem State.count_seipSw (s : State) :
    (s.count).seipSw = s.seipSw := rfl

@[simp] theorem State.count_irq (s : State) :
    (s.count).irq = s.irq := rfl

@[simp] theorem State.count_mcounteren (s : State) :
    (s.count).mcounteren = s.mcounteren := rfl

@[simp] theorem State.count_scounteren (s : State) :
    (s.count).scounteren = s.scounteren := rfl

@[simp] theorem State.count_mscratch (s : State) :
    (s.count).mscratch = s.mscratch := rfl

@[simp] theorem State.count_sscratch (s : State) :
    (s.count).sscratch = s.sscratch := rfl

@[simp] theorem State.count_mepc (s : State) :
    (s.count).mepc = s.mepc := rfl

@[simp] theorem State.count_sepc (s : State) :
    (s.count).sepc = s.sepc := rfl

@[simp] theorem State.count_mcause (s : State) :
    (s.count).mcause = s.mcause := rfl

@[simp] theorem State.count_scause (s : State) :
    (s.count).scause = s.scause := rfl

@[simp] theorem State.count_mtval (s : State) :
    (s.count).mtval = s.mtval := rfl

@[simp] theorem State.count_stval (s : State) :
    (s.count).stval = s.stval := rfl

@[simp] theorem State.count_satp (s : State) :
    (s.count).satp = s.satp := rfl

@[simp] theorem State.count_mcycle (s : State) :
    (s.count).mcycle = s.mcycle := rfl

@[simp] theorem State.count_mcycleFrom (s : State) :
    (s.count).mcycleFrom = s.mcycleFrom := rfl

@[simp] theorem State.count_resv (s : State) :
    (s.count).resv = s.resv := rfl

@[simp] theorem State.count_mem (s : State) :
    (s.count).mem = s.mem := rfl

@[simp] theorem State.count_staleSatp (s : State) :
    (s.count).staleSatp = s.staleSatp := rfl

@[simp] theorem State.count_tick (s : State) :
    (s.count).tick = s.tick := rfl

@[simp] theorem State.count_env (s : State) :
    (s.count).env = s.env := rfl

@[simp] theorem State.count_minstret (s : State) : s.count.minstret = s.minstret + 1 := rfl

@[simp] theorem State.count_beforeFetch (s : State) : s.count.beforeFetch = none := rfl

/-! ## `retireAt` -/

@[simp] theorem State.retireAt_cfg (s : State) (t : Word) :
    (s.retireAt t).cfg = s.cfg := rfl

@[simp] theorem State.retireAt_x (s : State) (t : Word) :
    (s.retireAt t).x = s.x := rfl

@[simp] theorem State.retireAt_f (s : State) (t : Word) :
    (s.retireAt t).f = s.f := rfl

@[simp] theorem State.retireAt_priv (s : State) (t : Word) :
    (s.retireAt t).priv = s.priv := rfl

@[simp] theorem State.retireAt_mstatus (s : State) (t : Word) :
    (s.retireAt t).mstatus = s.mstatus := rfl

@[simp] theorem State.retireAt_fflags (s : State) (t : Word) :
    (s.retireAt t).fflags = s.fflags := rfl

@[simp] theorem State.retireAt_frm (s : State) (t : Word) :
    (s.retireAt t).frm = s.frm := rfl

@[simp] theorem State.retireAt_mtvec (s : State) (t : Word) :
    (s.retireAt t).mtvec = s.mtvec := rfl

@[simp] theorem State.retireAt_stvec (s : State) (t : Word) :
    (s.retireAt t).stvec = s.stvec := rfl

@[simp] theorem State.retireAt_medeleg (s : State) (t : Word) :
    (s.retireAt t).medeleg = s.medeleg := rfl

@[simp] theorem State.retireAt_mideleg (s : State) (t : Word) :
    (s.retireAt t).mideleg = s.mideleg := rfl

@[simp] theorem State.retireAt_mie (s : State) (t : Word) :
    (s.retireAt t).mie = s.mie := rfl

@[simp] theorem State.retireAt_ssip (s : State) (t : Word) :
    (s.retireAt t).ssip = s.ssip := rfl

@[simp] theorem State.retireAt_stip (s : State) (t : Word) :
    (s.retireAt t).stip = s.stip := rfl

@[simp] theorem State.retireAt_seipSw (s : State) (t : Word) :
    (s.retireAt t).seipSw = s.seipSw := rfl

@[simp] theorem State.retireAt_irq (s : State) (t : Word) :
    (s.retireAt t).irq = s.irq := rfl

@[simp] theorem State.retireAt_mcounteren (s : State) (t : Word) :
    (s.retireAt t).mcounteren = s.mcounteren := rfl

@[simp] theorem State.retireAt_scounteren (s : State) (t : Word) :
    (s.retireAt t).scounteren = s.scounteren := rfl

@[simp] theorem State.retireAt_mscratch (s : State) (t : Word) :
    (s.retireAt t).mscratch = s.mscratch := rfl

@[simp] theorem State.retireAt_sscratch (s : State) (t : Word) :
    (s.retireAt t).sscratch = s.sscratch := rfl

@[simp] theorem State.retireAt_mepc (s : State) (t : Word) :
    (s.retireAt t).mepc = s.mepc := rfl

@[simp] theorem State.retireAt_sepc (s : State) (t : Word) :
    (s.retireAt t).sepc = s.sepc := rfl

@[simp] theorem State.retireAt_mcause (s : State) (t : Word) :
    (s.retireAt t).mcause = s.mcause := rfl

@[simp] theorem State.retireAt_scause (s : State) (t : Word) :
    (s.retireAt t).scause = s.scause := rfl

@[simp] theorem State.retireAt_mtval (s : State) (t : Word) :
    (s.retireAt t).mtval = s.mtval := rfl

@[simp] theorem State.retireAt_stval (s : State) (t : Word) :
    (s.retireAt t).stval = s.stval := rfl

@[simp] theorem State.retireAt_satp (s : State) (t : Word) :
    (s.retireAt t).satp = s.satp := rfl

@[simp] theorem State.retireAt_mcycle (s : State) (t : Word) :
    (s.retireAt t).mcycle = s.mcycle := rfl

@[simp] theorem State.retireAt_mcycleFrom (s : State) (t : Word) :
    (s.retireAt t).mcycleFrom = s.mcycleFrom := rfl

@[simp] theorem State.retireAt_resv (s : State) (t : Word) :
    (s.retireAt t).resv = s.resv := rfl

@[simp] theorem State.retireAt_mem (s : State) (t : Word) :
    (s.retireAt t).mem = s.mem := rfl

@[simp] theorem State.retireAt_staleSatp (s : State) (t : Word) :
    (s.retireAt t).staleSatp = s.staleSatp := rfl

@[simp] theorem State.retireAt_tick (s : State) (t : Word) :
    (s.retireAt t).tick = s.tick := rfl

@[simp] theorem State.retireAt_env (s : State) (t : Word) :
    (s.retireAt t).env = s.env := rfl

@[simp] theorem State.retireAt_pc (s : State) (t : Word) : (s.retireAt t).pc = t := rfl

@[simp] theorem State.retireAt_minstret (s : State) (t : Word) :
    (s.retireAt t).minstret = s.minstret + 1 := rfl

@[simp] theorem State.retireAt_beforeFetch (s : State) (t : Word) :
    (s.retireAt t).beforeFetch = none := rfl

/-! ## `accrue` -/

@[simp] theorem State.accrue_cfg (s : State) (fl : FpFlags) :
    (s.accrue fl).cfg = s.cfg := by
  unfold State.accrue; split <;> rfl

@[simp] theorem State.accrue_x (s : State) (fl : FpFlags) :
    (s.accrue fl).x = s.x := by
  unfold State.accrue; split <;> rfl

@[simp] theorem State.accrue_f (s : State) (fl : FpFlags) :
    (s.accrue fl).f = s.f := by
  unfold State.accrue; split <;> rfl

@[simp] theorem State.accrue_pc (s : State) (fl : FpFlags) :
    (s.accrue fl).pc = s.pc := by
  unfold State.accrue; split <;> rfl

@[simp] theorem State.accrue_priv (s : State) (fl : FpFlags) :
    (s.accrue fl).priv = s.priv := by
  unfold State.accrue; split <;> rfl

@[simp] theorem State.accrue_frm (s : State) (fl : FpFlags) :
    (s.accrue fl).frm = s.frm := by
  unfold State.accrue; split <;> rfl

@[simp] theorem State.accrue_mtvec (s : State) (fl : FpFlags) :
    (s.accrue fl).mtvec = s.mtvec := by
  unfold State.accrue; split <;> rfl

@[simp] theorem State.accrue_stvec (s : State) (fl : FpFlags) :
    (s.accrue fl).stvec = s.stvec := by
  unfold State.accrue; split <;> rfl

@[simp] theorem State.accrue_medeleg (s : State) (fl : FpFlags) :
    (s.accrue fl).medeleg = s.medeleg := by
  unfold State.accrue; split <;> rfl

@[simp] theorem State.accrue_mideleg (s : State) (fl : FpFlags) :
    (s.accrue fl).mideleg = s.mideleg := by
  unfold State.accrue; split <;> rfl

@[simp] theorem State.accrue_mie (s : State) (fl : FpFlags) :
    (s.accrue fl).mie = s.mie := by
  unfold State.accrue; split <;> rfl

@[simp] theorem State.accrue_ssip (s : State) (fl : FpFlags) :
    (s.accrue fl).ssip = s.ssip := by
  unfold State.accrue; split <;> rfl

@[simp] theorem State.accrue_stip (s : State) (fl : FpFlags) :
    (s.accrue fl).stip = s.stip := by
  unfold State.accrue; split <;> rfl

@[simp] theorem State.accrue_seipSw (s : State) (fl : FpFlags) :
    (s.accrue fl).seipSw = s.seipSw := by
  unfold State.accrue; split <;> rfl

@[simp] theorem State.accrue_irq (s : State) (fl : FpFlags) :
    (s.accrue fl).irq = s.irq := by
  unfold State.accrue; split <;> rfl

@[simp] theorem State.accrue_mcounteren (s : State) (fl : FpFlags) :
    (s.accrue fl).mcounteren = s.mcounteren := by
  unfold State.accrue; split <;> rfl

@[simp] theorem State.accrue_scounteren (s : State) (fl : FpFlags) :
    (s.accrue fl).scounteren = s.scounteren := by
  unfold State.accrue; split <;> rfl

@[simp] theorem State.accrue_mscratch (s : State) (fl : FpFlags) :
    (s.accrue fl).mscratch = s.mscratch := by
  unfold State.accrue; split <;> rfl

@[simp] theorem State.accrue_sscratch (s : State) (fl : FpFlags) :
    (s.accrue fl).sscratch = s.sscratch := by
  unfold State.accrue; split <;> rfl

@[simp] theorem State.accrue_mepc (s : State) (fl : FpFlags) :
    (s.accrue fl).mepc = s.mepc := by
  unfold State.accrue; split <;> rfl

@[simp] theorem State.accrue_sepc (s : State) (fl : FpFlags) :
    (s.accrue fl).sepc = s.sepc := by
  unfold State.accrue; split <;> rfl

@[simp] theorem State.accrue_mcause (s : State) (fl : FpFlags) :
    (s.accrue fl).mcause = s.mcause := by
  unfold State.accrue; split <;> rfl

@[simp] theorem State.accrue_scause (s : State) (fl : FpFlags) :
    (s.accrue fl).scause = s.scause := by
  unfold State.accrue; split <;> rfl

@[simp] theorem State.accrue_mtval (s : State) (fl : FpFlags) :
    (s.accrue fl).mtval = s.mtval := by
  unfold State.accrue; split <;> rfl

@[simp] theorem State.accrue_stval (s : State) (fl : FpFlags) :
    (s.accrue fl).stval = s.stval := by
  unfold State.accrue; split <;> rfl

@[simp] theorem State.accrue_satp (s : State) (fl : FpFlags) :
    (s.accrue fl).satp = s.satp := by
  unfold State.accrue; split <;> rfl

@[simp] theorem State.accrue_mcycle (s : State) (fl : FpFlags) :
    (s.accrue fl).mcycle = s.mcycle := by
  unfold State.accrue; split <;> rfl

@[simp] theorem State.accrue_mcycleFrom (s : State) (fl : FpFlags) :
    (s.accrue fl).mcycleFrom = s.mcycleFrom := by
  unfold State.accrue; split <;> rfl

@[simp] theorem State.accrue_minstret (s : State) (fl : FpFlags) :
    (s.accrue fl).minstret = s.minstret := by
  unfold State.accrue; split <;> rfl

@[simp] theorem State.accrue_resv (s : State) (fl : FpFlags) :
    (s.accrue fl).resv = s.resv := by
  unfold State.accrue; split <;> rfl

@[simp] theorem State.accrue_mem (s : State) (fl : FpFlags) :
    (s.accrue fl).mem = s.mem := by
  unfold State.accrue; split <;> rfl

@[simp] theorem State.accrue_staleSatp (s : State) (fl : FpFlags) :
    (s.accrue fl).staleSatp = s.staleSatp := by
  unfold State.accrue; split <;> rfl

@[simp] theorem State.accrue_tick (s : State) (fl : FpFlags) :
    (s.accrue fl).tick = s.tick := by
  unfold State.accrue; split <;> rfl

@[simp] theorem State.accrue_env (s : State) (fl : FpFlags) :
    (s.accrue fl).env = s.env := by
  unfold State.accrue; split <;> rfl

@[simp] theorem State.accrue_beforeFetch (s : State) (fl : FpFlags) :
    (s.accrue fl).beforeFetch = s.beforeFetch := by
  unfold State.accrue; split <;> rfl

@[simp] theorem State.accrue_fflags (s : State) (fl : FpFlags) :
    (s.accrue fl).fflags = s.fflags ||| fl := by
  unfold State.accrue; split
  · simp_all
  · rfl

@[simp] theorem State.accrue_mstatus (s : State) (fl : FpFlags) :
    (s.accrue fl).mstatus = if fl = 0 then s.mstatus else { s.mstatus with fs := 3 } := by
  unfold State.accrue; split <;> rfl

/-! ## `beginStep` -/

@[simp] theorem State.beginStep_cfg (s : State) :
    (s.beginStep).cfg = s.cfg := by
  unfold State.beginStep; split <;> rfl

@[simp] theorem State.beginStep_x (s : State) :
    (s.beginStep).x = s.x := by
  unfold State.beginStep; split <;> rfl

@[simp] theorem State.beginStep_f (s : State) :
    (s.beginStep).f = s.f := by
  unfold State.beginStep; split <;> rfl

@[simp] theorem State.beginStep_pc (s : State) :
    (s.beginStep).pc = s.pc := by
  unfold State.beginStep; split <;> rfl

@[simp] theorem State.beginStep_priv (s : State) :
    (s.beginStep).priv = s.priv := by
  unfold State.beginStep; split <;> rfl

@[simp] theorem State.beginStep_mstatus (s : State) :
    (s.beginStep).mstatus = s.mstatus := by
  unfold State.beginStep; split <;> rfl

@[simp] theorem State.beginStep_fflags (s : State) :
    (s.beginStep).fflags = s.fflags := by
  unfold State.beginStep; split <;> rfl

@[simp] theorem State.beginStep_frm (s : State) :
    (s.beginStep).frm = s.frm := by
  unfold State.beginStep; split <;> rfl

@[simp] theorem State.beginStep_mtvec (s : State) :
    (s.beginStep).mtvec = s.mtvec := by
  unfold State.beginStep; split <;> rfl

@[simp] theorem State.beginStep_stvec (s : State) :
    (s.beginStep).stvec = s.stvec := by
  unfold State.beginStep; split <;> rfl

@[simp] theorem State.beginStep_medeleg (s : State) :
    (s.beginStep).medeleg = s.medeleg := by
  unfold State.beginStep; split <;> rfl

@[simp] theorem State.beginStep_mideleg (s : State) :
    (s.beginStep).mideleg = s.mideleg := by
  unfold State.beginStep; split <;> rfl

@[simp] theorem State.beginStep_mie (s : State) :
    (s.beginStep).mie = s.mie := by
  unfold State.beginStep; split <;> rfl

@[simp] theorem State.beginStep_ssip (s : State) :
    (s.beginStep).ssip = s.ssip := by
  unfold State.beginStep; split <;> rfl

@[simp] theorem State.beginStep_stip (s : State) :
    (s.beginStep).stip = s.stip := by
  unfold State.beginStep; split <;> rfl

@[simp] theorem State.beginStep_seipSw (s : State) :
    (s.beginStep).seipSw = s.seipSw := by
  unfold State.beginStep; split <;> rfl

@[simp] theorem State.beginStep_mcounteren (s : State) :
    (s.beginStep).mcounteren = s.mcounteren := by
  unfold State.beginStep; split <;> rfl

@[simp] theorem State.beginStep_scounteren (s : State) :
    (s.beginStep).scounteren = s.scounteren := by
  unfold State.beginStep; split <;> rfl

@[simp] theorem State.beginStep_mscratch (s : State) :
    (s.beginStep).mscratch = s.mscratch := by
  unfold State.beginStep; split <;> rfl

@[simp] theorem State.beginStep_sscratch (s : State) :
    (s.beginStep).sscratch = s.sscratch := by
  unfold State.beginStep; split <;> rfl

@[simp] theorem State.beginStep_mepc (s : State) :
    (s.beginStep).mepc = s.mepc := by
  unfold State.beginStep; split <;> rfl

@[simp] theorem State.beginStep_sepc (s : State) :
    (s.beginStep).sepc = s.sepc := by
  unfold State.beginStep; split <;> rfl

@[simp] theorem State.beginStep_mcause (s : State) :
    (s.beginStep).mcause = s.mcause := by
  unfold State.beginStep; split <;> rfl

@[simp] theorem State.beginStep_scause (s : State) :
    (s.beginStep).scause = s.scause := by
  unfold State.beginStep; split <;> rfl

@[simp] theorem State.beginStep_mtval (s : State) :
    (s.beginStep).mtval = s.mtval := by
  unfold State.beginStep; split <;> rfl

@[simp] theorem State.beginStep_stval (s : State) :
    (s.beginStep).stval = s.stval := by
  unfold State.beginStep; split <;> rfl

@[simp] theorem State.beginStep_satp (s : State) :
    (s.beginStep).satp = s.satp := by
  unfold State.beginStep; split <;> rfl

@[simp] theorem State.beginStep_mcycle (s : State) :
    (s.beginStep).mcycle = s.mcycle := by
  unfold State.beginStep; split <;> rfl

@[simp] theorem State.beginStep_mcycleFrom (s : State) :
    (s.beginStep).mcycleFrom = s.mcycleFrom := by
  unfold State.beginStep; split <;> rfl

@[simp] theorem State.beginStep_minstret (s : State) :
    (s.beginStep).minstret = s.minstret := by
  unfold State.beginStep; split <;> rfl

@[simp] theorem State.beginStep_mem (s : State) :
    (s.beginStep).mem = s.mem := by
  unfold State.beginStep; split <;> rfl

@[simp] theorem State.beginStep_staleSatp (s : State) :
    (s.beginStep).staleSatp = s.staleSatp := by
  unfold State.beginStep; split <;> rfl

@[simp] theorem State.beginStep_beforeFetch (s : State) :
    (s.beginStep).beforeFetch = s.beforeFetch := by
  unfold State.beginStep; split <;> rfl

@[simp] theorem State.beginStep_tick (s : State) : s.beginStep.tick = s.tick + 1 := by
  unfold State.beginStep; split <;> rfl

/-! ## `discardFetch` -/

@[simp] theorem State.discardFetch_cfg (s : State) :
    (s.discardFetch).cfg = s.cfg := rfl

@[simp] theorem State.discardFetch_x (s : State) :
    (s.discardFetch).x = s.x := rfl

@[simp] theorem State.discardFetch_f (s : State) :
    (s.discardFetch).f = s.f := rfl

@[simp] theorem State.discardFetch_pc (s : State) :
    (s.discardFetch).pc = s.pc := rfl

@[simp] theorem State.discardFetch_priv (s : State) :
    (s.discardFetch).priv = s.priv := rfl

@[simp] theorem State.discardFetch_mstatus (s : State) :
    (s.discardFetch).mstatus = s.mstatus := rfl

@[simp] theorem State.discardFetch_fflags (s : State) :
    (s.discardFetch).fflags = s.fflags := rfl

@[simp] theorem State.discardFetch_frm (s : State) :
    (s.discardFetch).frm = s.frm := rfl

@[simp] theorem State.discardFetch_mtvec (s : State) :
    (s.discardFetch).mtvec = s.mtvec := rfl

@[simp] theorem State.discardFetch_stvec (s : State) :
    (s.discardFetch).stvec = s.stvec := rfl

@[simp] theorem State.discardFetch_medeleg (s : State) :
    (s.discardFetch).medeleg = s.medeleg := rfl

@[simp] theorem State.discardFetch_mideleg (s : State) :
    (s.discardFetch).mideleg = s.mideleg := rfl

@[simp] theorem State.discardFetch_mie (s : State) :
    (s.discardFetch).mie = s.mie := rfl

@[simp] theorem State.discardFetch_ssip (s : State) :
    (s.discardFetch).ssip = s.ssip := rfl

@[simp] theorem State.discardFetch_stip (s : State) :
    (s.discardFetch).stip = s.stip := rfl

@[simp] theorem State.discardFetch_seipSw (s : State) :
    (s.discardFetch).seipSw = s.seipSw := rfl

@[simp] theorem State.discardFetch_irq (s : State) :
    (s.discardFetch).irq = s.irq := rfl

@[simp] theorem State.discardFetch_mcounteren (s : State) :
    (s.discardFetch).mcounteren = s.mcounteren := rfl

@[simp] theorem State.discardFetch_scounteren (s : State) :
    (s.discardFetch).scounteren = s.scounteren := rfl

@[simp] theorem State.discardFetch_mscratch (s : State) :
    (s.discardFetch).mscratch = s.mscratch := rfl

@[simp] theorem State.discardFetch_sscratch (s : State) :
    (s.discardFetch).sscratch = s.sscratch := rfl

@[simp] theorem State.discardFetch_mepc (s : State) :
    (s.discardFetch).mepc = s.mepc := rfl

@[simp] theorem State.discardFetch_sepc (s : State) :
    (s.discardFetch).sepc = s.sepc := rfl

@[simp] theorem State.discardFetch_mcause (s : State) :
    (s.discardFetch).mcause = s.mcause := rfl

@[simp] theorem State.discardFetch_scause (s : State) :
    (s.discardFetch).scause = s.scause := rfl

@[simp] theorem State.discardFetch_mtval (s : State) :
    (s.discardFetch).mtval = s.mtval := rfl

@[simp] theorem State.discardFetch_stval (s : State) :
    (s.discardFetch).stval = s.stval := rfl

@[simp] theorem State.discardFetch_satp (s : State) :
    (s.discardFetch).satp = s.satp := rfl

@[simp] theorem State.discardFetch_mcycle (s : State) :
    (s.discardFetch).mcycle = s.mcycle := rfl

@[simp] theorem State.discardFetch_mcycleFrom (s : State) :
    (s.discardFetch).mcycleFrom = s.mcycleFrom := rfl

@[simp] theorem State.discardFetch_minstret (s : State) :
    (s.discardFetch).minstret = s.minstret := rfl

@[simp] theorem State.discardFetch_resv (s : State) :
    (s.discardFetch).resv = s.resv := rfl

@[simp] theorem State.discardFetch_staleSatp (s : State) :
    (s.discardFetch).staleSatp = s.staleSatp := rfl

@[simp] theorem State.discardFetch_tick (s : State) :
    (s.discardFetch).tick = s.tick := rfl

@[simp] theorem State.discardFetch_env (s : State) :
    (s.discardFetch).env = s.env := rfl

@[simp] theorem State.discardFetch_mem (s : State) :
    s.discardFetch.mem = s.beforeFetch.getD s.mem := rfl

@[simp] theorem State.discardFetch_beforeFetch (s : State) : s.discardFetch.beforeFetch = none := rfl

/-! ## `trapEntry` -/

@[simp] theorem State.trapEntry_cfg (s : State) (interrupt : Bool) (code : Nat) (epc tval : Word) :
    (s.trapEntry interrupt code epc tval).cfg = s.cfg := by
  unfold State.trapEntry; dsimp only; split <;> rfl

@[simp] theorem State.trapEntry_x (s : State) (interrupt : Bool) (code : Nat) (epc tval : Word) :
    (s.trapEntry interrupt code epc tval).x = s.x := by
  unfold State.trapEntry; dsimp only; split <;> rfl

@[simp] theorem State.trapEntry_f (s : State) (interrupt : Bool) (code : Nat) (epc tval : Word) :
    (s.trapEntry interrupt code epc tval).f = s.f := by
  unfold State.trapEntry; dsimp only; split <;> rfl

@[simp] theorem State.trapEntry_fflags (s : State) (interrupt : Bool) (code : Nat) (epc tval : Word) :
    (s.trapEntry interrupt code epc tval).fflags = s.fflags := by
  unfold State.trapEntry; dsimp only; split <;> rfl

@[simp] theorem State.trapEntry_frm (s : State) (interrupt : Bool) (code : Nat) (epc tval : Word) :
    (s.trapEntry interrupt code epc tval).frm = s.frm := by
  unfold State.trapEntry; dsimp only; split <;> rfl

@[simp] theorem State.trapEntry_mtvec (s : State) (interrupt : Bool) (code : Nat) (epc tval : Word) :
    (s.trapEntry interrupt code epc tval).mtvec = s.mtvec := by
  unfold State.trapEntry; dsimp only; split <;> rfl

@[simp] theorem State.trapEntry_stvec (s : State) (interrupt : Bool) (code : Nat) (epc tval : Word) :
    (s.trapEntry interrupt code epc tval).stvec = s.stvec := by
  unfold State.trapEntry; dsimp only; split <;> rfl

@[simp] theorem State.trapEntry_medeleg (s : State) (interrupt : Bool) (code : Nat) (epc tval : Word) :
    (s.trapEntry interrupt code epc tval).medeleg = s.medeleg := by
  unfold State.trapEntry; dsimp only; split <;> rfl

@[simp] theorem State.trapEntry_mideleg (s : State) (interrupt : Bool) (code : Nat) (epc tval : Word) :
    (s.trapEntry interrupt code epc tval).mideleg = s.mideleg := by
  unfold State.trapEntry; dsimp only; split <;> rfl

@[simp] theorem State.trapEntry_mie (s : State) (interrupt : Bool) (code : Nat) (epc tval : Word) :
    (s.trapEntry interrupt code epc tval).mie = s.mie := by
  unfold State.trapEntry; dsimp only; split <;> rfl

@[simp] theorem State.trapEntry_ssip (s : State) (interrupt : Bool) (code : Nat) (epc tval : Word) :
    (s.trapEntry interrupt code epc tval).ssip = s.ssip := by
  unfold State.trapEntry; dsimp only; split <;> rfl

@[simp] theorem State.trapEntry_stip (s : State) (interrupt : Bool) (code : Nat) (epc tval : Word) :
    (s.trapEntry interrupt code epc tval).stip = s.stip := by
  unfold State.trapEntry; dsimp only; split <;> rfl

@[simp] theorem State.trapEntry_seipSw (s : State) (interrupt : Bool) (code : Nat) (epc tval : Word) :
    (s.trapEntry interrupt code epc tval).seipSw = s.seipSw := by
  unfold State.trapEntry; dsimp only; split <;> rfl

@[simp] theorem State.trapEntry_irq (s : State) (interrupt : Bool) (code : Nat) (epc tval : Word) :
    (s.trapEntry interrupt code epc tval).irq = s.irq := by
  unfold State.trapEntry; dsimp only; split <;> rfl

@[simp] theorem State.trapEntry_mcounteren (s : State) (interrupt : Bool) (code : Nat) (epc tval : Word) :
    (s.trapEntry interrupt code epc tval).mcounteren = s.mcounteren := by
  unfold State.trapEntry; dsimp only; split <;> rfl

@[simp] theorem State.trapEntry_scounteren (s : State) (interrupt : Bool) (code : Nat) (epc tval : Word) :
    (s.trapEntry interrupt code epc tval).scounteren = s.scounteren := by
  unfold State.trapEntry; dsimp only; split <;> rfl

@[simp] theorem State.trapEntry_mscratch (s : State) (interrupt : Bool) (code : Nat) (epc tval : Word) :
    (s.trapEntry interrupt code epc tval).mscratch = s.mscratch := by
  unfold State.trapEntry; dsimp only; split <;> rfl

@[simp] theorem State.trapEntry_sscratch (s : State) (interrupt : Bool) (code : Nat) (epc tval : Word) :
    (s.trapEntry interrupt code epc tval).sscratch = s.sscratch := by
  unfold State.trapEntry; dsimp only; split <;> rfl

@[simp] theorem State.trapEntry_satp (s : State) (interrupt : Bool) (code : Nat) (epc tval : Word) :
    (s.trapEntry interrupt code epc tval).satp = s.satp := by
  unfold State.trapEntry; dsimp only; split <;> rfl

@[simp] theorem State.trapEntry_mcycle (s : State) (interrupt : Bool) (code : Nat) (epc tval : Word) :
    (s.trapEntry interrupt code epc tval).mcycle = s.mcycle := by
  unfold State.trapEntry; dsimp only; split <;> rfl

@[simp] theorem State.trapEntry_mcycleFrom (s : State) (interrupt : Bool) (code : Nat) (epc tval : Word) :
    (s.trapEntry interrupt code epc tval).mcycleFrom = s.mcycleFrom := by
  unfold State.trapEntry; dsimp only; split <;> rfl

@[simp] theorem State.trapEntry_minstret (s : State) (interrupt : Bool) (code : Nat) (epc tval : Word) :
    (s.trapEntry interrupt code epc tval).minstret = s.minstret := by
  unfold State.trapEntry; dsimp only; split <;> rfl

@[simp] theorem State.trapEntry_mem (s : State) (interrupt : Bool) (code : Nat) (epc tval : Word) :
    (s.trapEntry interrupt code epc tval).mem = s.mem := by
  unfold State.trapEntry; dsimp only; split <;> rfl

@[simp] theorem State.trapEntry_staleSatp (s : State) (interrupt : Bool) (code : Nat) (epc tval : Word) :
    (s.trapEntry interrupt code epc tval).staleSatp = s.staleSatp := by
  unfold State.trapEntry; dsimp only; split <;> rfl

@[simp] theorem State.trapEntry_tick (s : State) (interrupt : Bool) (code : Nat) (epc tval : Word) :
    (s.trapEntry interrupt code epc tval).tick = s.tick := by
  unfold State.trapEntry; dsimp only; split <;> rfl

@[simp] theorem State.trapEntry_env (s : State) (interrupt : Bool) (code : Nat) (epc tval : Word) :
    (s.trapEntry interrupt code epc tval).env = s.env := by
  unfold State.trapEntry; dsimp only; split <;> rfl

@[simp] theorem State.trapEntry_beforeFetch (s : State) (interrupt : Bool) (code : Nat) (epc tval : Word) :
    (s.trapEntry interrupt code epc tval).beforeFetch = s.beforeFetch := by
  unfold State.trapEntry; dsimp only; split <;> rfl

@[simp] theorem State.trapEntry_resv (s : State) (interrupt : Bool) (code : Nat) (epc tval : Word) :
    (s.trapEntry interrupt code epc tval).resv = none := by
  unfold State.trapEntry; dsimp only; split <;> rfl

end Sys2Proof.Machine
end

