-- ==== Sys2Proof/Laws/Csr.lean ====
section
/-! SUPPORT. What a CSR access, a CSR write and a CSR instruction can do. -/

namespace Sys2Proof.Machine

open Sys2Proof

/-- An access is allowed exactly where the four checks of R31 pass. -/
theorem State.csrAccess_eq_some (s : State) (a : BitVec 12) (writes : Bool) (r : Csr) :
    s.csrAccess a writes = some r ↔
      csrLevel a ≤ s.priv.code ∧ (writes = true → csrReadOnly a = false) ∧ csrAt s.cfg a = some r ∧
        s.csrExtra r = true := by
  unfold State.csrAccess
  split
  · simp; omega
  · split
    · rename_i h; simp at h; simp [h.1, h.2]
    · rename_i h h'
      simp only [Option.filter_eq_some_iff]
      simp at h h'
      exact ⟨fun ⟨h1, h2⟩ => ⟨h, h', h1, h2⟩, fun ⟨_, _, h1, h2⟩ => ⟨h1, h2⟩⟩

/-- A write to `satp` changes nothing, or stores a legal value and records the one before (R51, R71). -/
theorem State.writeSatp_cases (s : State) (v : Word) :
    s.writeSatp v = s ∨
      (satpLegal s.cfg v = true ∧ s.writeSatp v =
        { s with
          satp := satpStored s.cfg v, staleSatp := { old := s.satp, pages := [] } :: s.staleSatp }) := by
  unfold State.writeSatp
  split
  · rename_i h
    dsimp only
    split
    · exact .inl rfl
    · exact .inr ⟨h, rfl⟩
  · exact .inl rfl

/-- A CSR write leaves everything that is not a CSR as it was: the configuration, the registers, the pc,
the mode, the interrupt inputs, the reservation and memory. -/
theorem State.csrWrite_frame (s : State) (r : Csr) (v : Word) :
    (s.csrWrite r v).cfg = s.cfg ∧ (s.csrWrite r v).x = s.x ∧ (s.csrWrite r v).f = s.f ∧
      (s.csrWrite r v).pc = s.pc ∧ (s.csrWrite r v).priv = s.priv ∧ (s.csrWrite r v).irq = s.irq ∧
      (s.csrWrite r v).resv = s.resv ∧ (s.csrWrite r v).mem = s.mem ∧ (s.csrWrite r v).tick = s.tick ∧
      (s.csrWrite r v).env = s.env ∧ (s.csrWrite r v).beforeFetch = s.beforeFetch := by
  cases r <;> first
    | exact ⟨rfl, rfl, rfl, rfl, rfl, rfl, rfl, rfl, rfl, rfl, rfl⟩
    | (unfold State.csrWrite
       dsimp only
       split <;> exact ⟨rfl, rfl, rfl, rfl, rfl, rfl, rfl, rfl, rfl, rfl, rfl⟩)
    | (rcases s.writeSatp_cases v with h | ⟨_, h⟩ <;> unfold State.csrWrite <;> rw [h] <;>
        exact ⟨rfl, rfl, rfl, rfl, rfl, rfl, rfl, rfl, rfl, rfl, rfl⟩)

/-- Only a write to one of the two halves of `minstret` changes the count of instructions. -/
theorem State.csrWrite_minstret (s : State) (r : Csr) (v : Word) (h : r.isInstret = false) :
    (s.csrWrite r v).minstret = s.minstret := by
  cases r <;> first
    | rfl
    | exact absurd h (by decide)
    | (unfold State.csrWrite
       dsimp only
       split <;> rfl)
    | (rcases s.writeSatp_cases v with h | ⟨_, h⟩ <;> unfold State.csrWrite <;> rw [h])

/-- A CSR instruction that completes was allowed, and leaves what its read, write and retirement make. -/
theorem State.csrInstr_eq_ok (s t : State) (i : Instr) (a : BitVec 12) (rd : Reg) (writes : Bool)
    (newValue : Word → Word) (h : s.csrInstr i a rd writes newValue = .ok t) :
    ∃ r, s.csrAccess a writes = some r ∧ t = (s.csrUpdate r rd writes newValue).csrRetire r writes := by
  unfold State.csrInstr at h
  split at h
  · cases h
  · rename_i r hr
    cases h
    exact ⟨r, hr, rfl⟩

end Sys2Proof.Machine
end

