-- ==== Sys2Proof/Laws/Number.lean ====
section
/-! SUPPORT. The XLEN-bit containers as numbers: the unsigned and signed views, wrapping, and what the
register and pc operations do to them. -/

namespace Sys2Proof

theorem Xlen.norm_toNat (x : Xlen) (v : Word) : (x.norm v).toNat = v.toNat % 2 ^ x.bits := by
  cases x
  · simp [Xlen.norm, Xlen.bits]; omega
  · exact (Nat.mod_eq_of_lt v.isLt).symm

@[simp] theorem Xlen.norm_norm (x : Xlen) (v : Word) : x.norm (x.norm v) = x.norm v := by
  cases x <;> simp [Xlen.norm]

@[simp] theorem Xlen.norm_zero (x : Xlen) : x.norm 0 = 0 := by cases x <;> rfl

theorem Xlen.norm_lt (x : Xlen) (v : Word) : (x.norm v).toNat < 2 ^ x.bits := by
  rw [Xlen.norm_toNat]; exact Nat.mod_lt _ (by positivity)

/-- An XLEN-bit value is its own container. -/
theorem Xlen.norm_of_lt (x : Xlen) (v : Word) (h : v.toNat < 2 ^ x.bits) : x.norm v = v := by
  apply BitVec.eq_of_toNat_eq
  rw [Xlen.norm_toNat, Nat.mod_eq_of_lt h]

theorem Xlen.two_pow_dvd (x : Xlen) : 2 ^ x.bits ∣ 2 ^ 64 := by cases x <;> decide

end Sys2Proof

namespace Sys2Proof.Machine

open Sys2Proof

theorem State.modulus_pos (s : State) : 0 < s.modulus := by unfold State.modulus; positivity

theorem State.modulus_dvd (s : State) : s.modulus ∣ 2 ^ 64 := s.cfg.xlen.two_pow_dvd

/-- The signed view of a container, as the two's complement number of its low XLEN bits. -/
theorem signedView_eq (x : Xlen) (v : Word) :
    signedView x v = ((v.toNat : Int)).bmod (2 ^ x.bits) := by
  cases x
  · simp only [signedView, Xlen.sext, Xlen.bits]
    rw [BitVec.toInt_signExtend_of_le (by omega), BitVec.toInt_eq_toNat_bmod]
    simp only [BitVec.toNat_setWidth, Nat.cast_pow, Nat.cast_ofNat, Int.natCast_mod]
    exact_mod_cast Int.emod_bmod (x := (v.toNat : Int)) (n := 2 ^ 32)
  · simp only [signedView, Xlen.sext, Xlen.bits]
    rw [BitVec.toInt_eq_toNat_bmod]

theorem unsignedView_eq (x : Xlen) (v : Word) : unsignedView x v = (v.toNat % 2 ^ x.bits : Nat) := by
  simp [unsignedView, Xlen.norm_toNat]

theorem State.getX_zero (s : State) : s.getX 0 = 0 := rfl

theorem State.getX_lt (s : State) (r : Reg) : (s.getX r).toNat < s.modulus := by
  unfold State.getX; split
  · exact s.modulus_pos
  · exact Xlen.norm_lt _ _

theorem State.ux_lt (s : State) (r : Reg) : s.ux r < s.modulus := s.getX_lt r

@[simp] theorem State.norm_getX (s : State) (r : Reg) : s.cfg.xlen.norm (s.getX r) = s.getX r :=
  Xlen.norm_of_lt _ _ (s.getX_lt r)

@[simp] theorem State.ux_zero (s : State) : s.ux 0 = 0 := rfl

/-- The signed view of a register is its two's complement number. -/
theorem State.signedView_getX (s : State) (r : Reg) : signedView s.cfg.xlen (s.getX r) = s.sx r := by
  have h := s.ux_lt r
  have hp := s.modulus_pos
  rw [signedView_eq]
  unfold State.sx State.ux at *
  rw [Int.bmod_def]
  have : (2 ^ s.cfg.xlen.bits : Nat) = s.modulus := rfl
  push_cast [this] at *
  have h2 : s.modulus % 2 = 0 := by
    unfold State.modulus; cases s.cfg.xlen <;> simp [Xlen.bits]
  rw [Int.emod_eq_of_lt (by omega) (by exact_mod_cast h)]
  split <;> split <;> omega

theorem State.unsignedView_getX (s : State) (r : Reg) : unsignedView s.cfg.xlen (s.getX r) = s.ux r := by
  simp [unsignedView, State.ux]

/-- Wrapping a number of a container. -/
theorem State.wrap_toNat (s : State) (v : Word) : s.wrap v.toNat = (s.cfg.xlen.norm v).toNat := by
  rw [Xlen.norm_toNat]
  unfold State.wrap State.modulus
  norm_cast

theorem State.wrap_natCast (s : State) (n : Nat) : s.wrap n = n % s.modulus := by
  unfold State.wrap; norm_cast

theorem State.wrap_lt (s : State) (v : Int) : s.wrap v < s.modulus := by
  have := s.modulus_pos
  have := Int.emod_lt_of_pos v (show (0 : Int) < s.modulus by omega)
  unfold State.wrap; omega

/-- Numbers that differ by a multiple of 2^64 wrap to the same. -/
theorem State.wrap_emod (s : State) (v : Int) : s.wrap (v % 2 ^ 64) = s.wrap v := by
  unfold State.wrap
  rw [Int.emod_emod_of_dvd]
  have := s.modulus_dvd
  exact_mod_cast this

theorem State.wrap_congr (s : State) {v w : Int} (h : v % 2 ^ 64 = w % 2 ^ 64) : s.wrap v = s.wrap w := by
  rw [← s.wrap_emod v, h, s.wrap_emod]

/-- The number of a container that was made from an integer. -/
theorem State.wrap_ofInt (s : State) (v : Int) : s.wrap (BitVec.ofInt 64 v).toNat = s.wrap v := by
  rw [BitVec.toNat_ofInt]
  apply s.wrap_congr
  omega

theorem State.wrap_toInt (s : State) (v : Word) : s.wrap v.toInt = s.wrap v.toNat := by
  apply s.wrap_congr
  rw [BitVec.toInt_eq_toNat_cond]
  split <;> omega

theorem State.pcPlus_toNat (s : State) (offset : Word) :
    (s.pcPlus offset).toNat = s.wrap (s.pc.toNat + offset.toInt) := by
  unfold State.pcPlus
  rw [← s.wrap_toNat]
  apply s.wrap_congr
  rw [BitVec.toInt_eq_toNat_cond, BitVec.toNat_add]
  split <;> omega

theorem State.addrPlus_toNat (s : State) (r : Reg) (offset : Word) :
    (s.addrPlus r offset).toNat = s.dataAddress r offset.toInt := by
  unfold State.addrPlus State.dataAddress State.ux
  rw [← s.wrap_toNat]
  apply s.wrap_congr
  rw [BitVec.toInt_eq_toNat_cond, BitVec.toNat_add]
  split <;> omega

/-! ## Registers -/

/-- What a register write does to every register (R18, R19). -/
theorem State.getX_setX (s : State) (r q : Reg) (v : Word) :
    (s.setX r v).getX q = if q = 0 then 0 else if q = r then s.cfg.xlen.norm v else s.getX q := by
  unfold State.setX State.getX
  by_cases hr : r = 0
  · subst hr; simp; split <;> simp_all
  · simp only [hr, if_false]
    by_cases hq : q = 0
    · simp [hq]
    · simp only [hq, if_false]
      by_cases h : q = r
      · subst h; simp
      · have : r.toNat ≠ q.toNat := fun e => h (BitVec.eq_of_toNat_eq e.symm)
        simp [h, this]

theorem State.ux_setX_self (s : State) (r : Reg) (v : Word) :
    (s.setX r v).ux r = if r = 0 then 0 else s.wrap v.toNat := by
  unfold State.ux
  rw [State.getX_setX, State.wrap_toNat]
  split <;> simp

theorem State.ux_setX_other (s : State) (r q : Reg) (v : Word) (h : q ≠ r) :
    (s.setX r v).ux q = s.ux q := by
  unfold State.ux
  rw [State.getX_setX]
  split
  · subst_vars; rfl
  · simp

/-- What a floating-point register write does to every register (R26). -/
theorem State.getF_setF (s : State) (r q : Reg) (v : Word) :
    (s.setF r v).getF q =
      if q = r then if s.cfg.flen64 then v else (v.setWidth 32).setWidth 64 else s.getF q := by
  unfold State.setF State.getF
  by_cases h : q = r
  · subst h; simp; intro hf; simp [hf]
  · have : r.toNat ≠ q.toNat := fun e => h (BitVec.eq_of_toNat_eq e.symm)
    simp [h, this]

/-! ## Operations that leave the registers alone -/

@[simp] theorem State.getX_retire (s : State) (len : Nat) (r : Reg) :
    (s.retire len).getX r = s.getX r := rfl

@[simp] theorem State.ux_retire (s : State) (len : Nat) (r : Reg) : (s.retire len).ux r = s.ux r := rfl

@[simp] theorem State.getF_retire (s : State) (len : Nat) (r : Reg) :
    (s.retire len).getF r = s.getF r := rfl

@[simp] theorem State.getX_accrue (s : State) (fl : FpFlags) (r : Reg) :
    (s.accrue fl).getX r = s.getX r := by
  unfold State.accrue; split <;> rfl

@[simp] theorem State.ux_accrue (s : State) (fl : FpFlags) (r : Reg) :
    (s.accrue fl).ux r = s.ux r := by
  unfold State.accrue; split <;> rfl

@[simp] theorem State.getF_accrue (s : State) (fl : FpFlags) (r : Reg) :
    (s.accrue fl).getF r = s.getF r := by
  unfold State.accrue; split <;> rfl

@[simp] theorem State.getX_setF (s : State) (r q : Reg) (v : Word) : (s.setF r v).getX q = s.getX q := rfl

end Sys2Proof.Machine
end

