-- ==== Sys2Proof/Laws/Memory.lean ====
section
/-! SUPPORT. Memory: reading after writing, and the canonical form that every operation keeps. -/

namespace Sys2Proof.Machine

open Sys2Proof

/-! ## Cells -/

theorem lookup_insertCell (l : List Host.Cell) (a k : Nat) (b : Byte) (h : ∀ p ∈ l, p.1 ≠ a) :
    (insertCell l a b).lookup k = if k = a then some b else l.lookup k := by
  induction l with
  | nil =>
    by_cases hk : k = a
    · simp [insertCell, hk]
    · have : (k == a) = false := by simp [hk]
      simp [insertCell, List.lookup, hk, this]
  | cons p rest ih =>
    obtain ⟨q, v⟩ := p
    have ih := ih fun p hp => h p (List.mem_cons_of_mem _ hp)
    have hq : q ≠ a := h (q, v) List.mem_cons_self
    unfold insertCell
    by_cases hk : k = a
    · subst hk
      split
      · simp [List.lookup]
      · have : (k == q) = false := by simp [Ne.symm hq]
        simp [List.lookup, this, ih]
    · split
      · have : (k == a) = false := by simp [hk]
        simp [List.lookup, this]
      · simp [List.lookup, ih, hk]

theorem lookup_filter_ne (l : List Host.Cell) (a k : Nat) :
    (l.filter fun p => p.1 != a).lookup k = if k = a then none else l.lookup k := by
  induction l with
  | nil => simp [List.lookup]
  | cons p rest ih =>
    obtain ⟨q, v⟩ := p
    by_cases hq : q = a
    · subst hq
      simp only [List.filter_cons, bne_self_eq_false, Bool.false_eq_true, if_false, ih]
      by_cases hk : k = q
      · simp [hk]
      · have : (k == q) = false := by simp [hk]
        simp [List.lookup, hk, this]
    · have : (q != a) = true := by simp [hq]
      simp only [List.filter_cons, this, if_true, List.lookup]
      by_cases hk : k = q
      · subst hk; simp [hq]
      · have : (k == q) = false := by simp [hk]
        simp [this, ih]

/-- The byte a cell list gives after a write (R52). -/
theorem lookup_putCell (l : List Host.Cell) (a k : Nat) (b : Byte) :
    ((putCell l a b).lookup k).getD Mem.unlisted =
      if k = a then b else (l.lookup k).getD Mem.unlisted := by
  unfold putCell
  dsimp only
  split
  · rw [lookup_filter_ne]; split <;> simp_all
  · rw [lookup_insertCell _ _ _ _ (by simp), lookup_filter_ne]; split <;> simp_all

theorem mem_insertCell (l : List Host.Cell) (a : Nat) (b : Byte) (p : Host.Cell) :
    p ∈ insertCell l a b ↔ p = (a, b) ∨ p ∈ l := by
  induction l with
  | nil => simp [insertCell]
  | cons q rest ih =>
    unfold insertCell; split
    · simp
    · simp [ih]; tauto

theorem pairwise_insertCell (l : List Host.Cell) (a : Nat) (b : Byte)
    (h : l.Pairwise fun p q => p.1 < q.1) (ha : ∀ p ∈ l, p.1 ≠ a) :
    (insertCell l a b).Pairwise fun p q => p.1 < q.1 := by
  induction l with
  | nil => simp [insertCell]
  | cons q rest ih =>
    rw [List.pairwise_cons] at h
    have hq := ha q List.mem_cons_self
    unfold insertCell; split
    · next hlt =>
      refine List.pairwise_cons.2 ⟨fun p hp => ?_, List.pairwise_cons.2 h⟩
      rcases List.mem_cons.1 hp with rfl | hp
      · exact hlt
      · exact lt_trans hlt (h.1 p hp)
    · next hlt =>
      refine List.pairwise_cons.2 ⟨fun p hp => ?_,
        ih h.2 fun p hp => ha p (List.mem_cons_of_mem _ hp)⟩
      rcases (mem_insertCell _ _ _ _).1 hp with rfl | hp
      · show q.1 < a; omega
      · exact h.1 p hp

/-! ## One byte -/

theorem Mem.wf_iff (m : Mem) : m.wf = true ↔
    (m.cells.Pairwise fun p q => p.1 < q.1) ∧ ∀ p ∈ m.cells, p.2 ≠ Mem.unlisted := by
  simp [Mem.wf]

@[simp] theorem Mem.read_place (m : Mem) (a k : Nat) (b : Byte) :
    (m.place a b).read k = if k = a then b else m.read k := lookup_putCell m.cells a k b

/-- The canonical form of a list of cells. -/
def CellsWf (l : List Host.Cell) : Prop :=
  (l.Pairwise fun p q => p.1 < q.1) ∧ ∀ p ∈ l, p.2 ≠ Mem.unlisted

theorem wf_putCell (l : List Host.Cell) (a : Nat) (b : Byte) (h : CellsWf l) : CellsWf (putCell l a b) := by
  unfold putCell
  dsimp only
  have hf : (l.filter fun p => p.1 != a).Pairwise fun p q => p.1 < q.1 := h.1.filter _
  split
  · exact ⟨hf, fun q hq => h.2 q (List.mem_filter.1 hq).1⟩
  · next hb =>
    refine ⟨pairwise_insertCell _ _ _ hf (by simp), fun q hq => ?_⟩
    rcases (mem_insertCell _ _ _ _).1 hq with rfl | hq
    · exact hb
    · exact h.2 q (List.mem_filter.1 hq).1

/-- Placing a byte keeps the canonical form. -/
theorem Mem.wf_place (m : Mem) (a : Nat) (b : Byte) (h : m.wf = true) :
    (m.place a b).wf = true := (Mem.wf_iff _).2 (wf_putCell m.cells a b ((Mem.wf_iff _).1 h))

/-- A fence keeps the canonical form. -/
theorem Mem.wf_fenceCode (m : Mem) (h : m.wf = true) : m.fenceCode.wf = true := h

/-- A full `sfence.vma` keeps the canonical form. -/
theorem Mem.wf_fencePte (m : Mem) (h : m.wf = true) : m.fencePte.wf = true := h

/-- A narrower `sfence.vma` keeps the canonical form. -/
theorem Mem.wf_notePteFence (m : Mem) (fence : PartialFence) (h : m.wf = true) :
    (m.notePteFence fence).wf = true := h

@[simp] theorem Mem.read_fenceCode (m : Mem) (a : Nat) : m.fenceCode.read a = m.read a := rfl

@[simp] theorem Mem.read_fencePte (m : Mem) (a : Nat) : m.fencePte.read a = m.read a := rfl

@[simp] theorem Mem.read_notePteFence (m : Mem) (fence : PartialFence) (a : Nat) :
    (m.notePteFence fence).read a = m.read a := rfl

/-- Memory right after reset is canonical. -/
theorem Mem.wf_reset (c : Config) : (State.resetWith c).mem.wf = true := rfl

/-! ## Several bytes -/

theorem mem_bytesFrom (a n k : Nat) : k ∈ bytesFrom a n ↔ a ≤ k ∧ k < a + n := by
  simp only [bytesFrom, List.mem_map, List.mem_range]
  constructor
  · rintro ⟨i, hi, rfl⟩; omega
  · rintro ⟨h1, h2⟩; exact ⟨k - a, by omega, by omega⟩

@[simp] theorem length_bytesFrom (a n : Nat) : (bytesFrom a n).length = n := by simp [bytesFrom]

theorem bytesFrom_succ (a n : Nat) : bytesFrom a (n + 1) = a :: bytesFrom (a + 1) n := by
  simp only [bytesFrom, List.range_succ_eq_map, List.map_cons, List.map_map]
  congr 1
  apply List.map_congr_left
  intro i _
  simp only [Function.comp_apply]; omega

@[simp] theorem bytesFrom_zero (a : Nat) : bytesFrom a 0 = [] := rfl

/-- The first byte of an access that resolved. -/
theorem firstOf_bytesFrom (a n : Nat) (h : 0 < n) : (bytesFrom a n).head? = some a := by
  obtain ⟨k, rfl⟩ := Nat.exists_eq_succ_of_ne_zero (Nat.pos_iff_ne_zero.1 h)
  rw [bytesFrom_succ]; rfl

theorem wf_putCells (l : List Nat) (cells : List Host.Cell) (v : Nat) (h : CellsWf cells) :
    CellsWf (putCells cells l v) := by
  induction l generalizing cells v with
  | nil => exact h
  | cons a rest ih => exact ih _ _ (wf_putCell _ _ _ h)

/-- Writing several bytes keeps the canonical form. -/
theorem Mem.wf_writeAll (l : List Nat) (m : Mem) (v : Nat) (h : m.wf = true) :
    (m.writeAll l v).wf = true := (Mem.wf_iff _).2 (wf_putCells l m.cells v ((Mem.wf_iff _).1 h))

theorem lookup_putCells_of_not_mem (l : List Nat) (cells : List Host.Cell) (v k : Nat) (h : k ∉ l) :
    ((putCells cells l v).lookup k).getD Mem.unlisted = (cells.lookup k).getD Mem.unlisted := by
  induction l generalizing cells v with
  | nil => rfl
  | cons a rest ih =>
    rw [List.mem_cons, not_or] at h
    unfold putCells
    rw [ih _ _ h.2, lookup_putCell, if_neg h.1]

/-- Writing several bytes changes no other byte. -/
theorem Mem.read_writeAll_of_not_mem (l : List Nat) (m : Mem) (v k : Nat) (h : k ∉ l) :
    (m.writeAll l v).read k = m.read k := lookup_putCells_of_not_mem l m.cells v k h

theorem lookup_putCells (n a : Nat) (cells : List Host.Cell) (v k : Nat) (h : k < n) :
    ((putCells cells (bytesFrom a n) v).lookup (a + k)).getD Mem.unlisted =
      BitVec.ofNat 8 (v / 256 ^ k) := by
  induction n generalizing a cells v k with
  | zero => omega
  | succ n ih =>
    rw [bytesFrom_succ]
    unfold putCells
    cases k with
    | zero =>
      rw [lookup_putCells_of_not_mem _ _ _ _ (by rw [mem_bytesFrom]; omega), lookup_putCell]
      simp
    | succ k =>
      rw [show a + (k + 1) = a + 1 + k by omega, ih _ _ _ _ (by omega), Nat.div_div_eq_div_mul,
        pow_succ']

/-- Each byte of a number written to consecutive addresses (R58, R65). -/
theorem Mem.read_writeAll (n a : Nat) (m : Mem) (v k : Nat) (h : k < n) :
    (m.writeAll (bytesFrom a n) v).read (a + k) = BitVec.ofNat 8 (v / 256 ^ k) :=
  lookup_putCells n a m.cells v k h

theorem Mem.readAll_lt (l : List Nat) (m : Mem) : m.readAll l < 256 ^ l.length := by
  induction l with
  | nil => simp [Mem.readAll]
  | cons a rest ih =>
    have := (m.read a).isLt
    simp only [Mem.readAll, List.length_cons, pow_succ']
    omega

/-- The number read depends on the bytes alone. -/
theorem Mem.readAll_congr (l : List Nat) (m m' : Mem) (h : ∀ a ∈ l, m'.read a = m.read a) :
    m'.readAll l = m.readAll l := by
  induction l with
  | nil => rfl
  | cons a rest ih =>
    simp only [Mem.readAll]
    rw [h a List.mem_cons_self, ih fun b hb => h b (List.mem_cons_of_mem _ hb)]

/-! ## Values before stores -/

theorem cellsNumber_map_read (m : Mem) (l : List Nat) :
    cellsNumber (l.map fun a => (a, m.read a)) = m.readAll l := by
  induction l with
  | nil => rfl
  | cons a rest ih => simp only [List.map_cons, cellsNumber, Mem.readAll, ih]

theorem rewind_of_not_mem (window before : List Host.Cell)
    (h : ∀ p ∈ before, ∀ q ∈ window, p.1 ≠ q.1) : rewind window before = window := by
  unfold rewind
  refine (List.map_congr_left fun q hq => ?_).trans (List.map_id _)
  rw [List.lookup_eq_none_iff.2 fun p hp => by simpa using fun he => h p hp q hq he.symm]
  rfl

theorem pastWindows_of_not_mem (window : List Host.Cell) (stores : List (List Host.Cell))
    (h : ∀ before ∈ stores, ∀ p ∈ before, ∀ q ∈ window, p.1 ≠ q.1) :
    ∀ w ∈ pastWindows window stores, w = window := by
  induction stores with
  | nil => intro w hw; cases hw
  | cons before older ih =>
    have hb := rewind_of_not_mem window before (h before List.mem_cons_self)
    intro w hw
    unfold pastWindows at hw
    rw [hb] at hw
    rcases List.mem_cons.1 hw with rfl | hw
    · rfl
    · exact ih (fun b hb => h b (List.mem_cons_of_mem _ hb)) w hw

/-- Stores elsewhere leave no old value of the given bytes. -/
theorem Mem.past_eq_of_not_mem (m : Mem) (addrs : List Nat) (stores : List (List Host.Cell))
    (h : ∀ before ∈ stores, ∀ p ∈ before, p.1 ∉ addrs) :
    ∀ v ∈ m.past addrs stores, v = m.readAll addrs := by
  intro v hv
  obtain ⟨w, hw, rfl⟩ := List.mem_map.1 hv
  rw [pastWindows_of_not_mem _ _ _ w hw, cellsNumber_map_read]
  intro before hb p hp q hq he
  obtain ⟨a, ha, rfl⟩ := List.mem_map.1 hq
  exact h before hb p hp (he ▸ ha)

/-- A fetch of bytes no store has changed since the last `fence.i` has no old value to return (R79). -/
theorem Mem.oldCode_of_fresh (m : Mem) (addrs : List Nat)
    (h : ∀ before ∈ m.staleCode, ∀ p ∈ before, p.1 ∉ addrs) : m.oldCode addrs = [] := by
  unfold Mem.oldCode
  rw [List.filter_eq_nil_iff]
  intro v hv
  simp [m.past_eq_of_not_mem addrs _ h v hv]

/-- With nothing recorded since the last full `sfence.vma`, a page-table read has no old value to return
(R71). -/
theorem Mem.oldPte_of_fresh (m : Mem) (hides : PartialFence → Nat → Bool) (addrs : List Nat)
    (h : m.stalePte = []) : m.oldPte hides addrs = [] := by
  unfold Mem.oldPte
  rw [h]
  rfl

theorem Mem.lookup_overwritten (m : Mem) (addrs : List Nat) (v k : Nat) :
    (m.overwritten addrs v).lookup k = none ∨ (m.overwritten addrs v).lookup k = some (m.read k) := by
  induction addrs generalizing v with
  | nil => exact .inl rfl
  | cons a rest ih =>
    unfold Mem.overwritten
    split
    · exact ih _
    · by_cases hk : k = a
      · subst hk; exact .inr (by simp [List.lookup])
      · have : (k == a) = false := by simp [hk]
        simpa [List.lookup, this] using ih (v / 256)

/-- A byte that a store does not record keeps its value. -/
theorem Mem.read_writeAll_of_lookup (m : Mem) (addrs : List Nat) (v k : Nat)
    (h : (m.overwritten addrs v).lookup k = none) : (m.writeAll addrs v).read k = m.read k := by
  have key : ∀ (l : List Nat) (cells : List Host.Cell) (v : Nat),
      (m.overwritten l v).lookup k = none → (cells.lookup k).getD Mem.unlisted = m.read k →
      ((putCells cells l v).lookup k).getD Mem.unlisted = m.read k := by
    intro l
    induction l with
    | nil => intro cells v _ h; exact h
    | cons a rest ih =>
      intro cells v ho hc
      unfold Mem.overwritten at ho
      unfold putCells
      by_cases hk : k = a
      · subst hk
        split at ho
        · rename_i hv
          exact ih _ _ ho (by rw [lookup_putCell, if_pos rfl, hv])
        · simp [List.lookup] at ho
      · refine ih _ _ ?_ (by rw [lookup_putCell, if_neg hk]; exact hc)
        split at ho
        · exact ho
        · have : (k == a) = false := by simp [hk]
          simpa [List.lookup, this] using ho
  exact key addrs m.cells v h rfl

/-- Undoing the newest store gives back the bytes as they were before it. -/
theorem Mem.rewind_writeAll (m : Mem) (addrs l : List Nat) (v : Nat) :
    rewind (l.map fun a => (a, (m.writeAll addrs v).read a)) (m.overwritten addrs v) =
      l.map fun a => (a, m.read a) := by
  unfold rewind
  rw [List.map_map]
  refine List.map_congr_left fun a _ => ?_
  rcases m.lookup_overwritten addrs v a with h | h
  · simp [h, m.read_writeAll_of_lookup addrs v a h]
  · simp [h]

/-- An old value that a page-table read may return comes from a store that no fence since hides for it (R71). -/
theorem Mem.oldPte_unhidden (m : Mem) (hides : PartialFence → Nat → Bool) (addrs : List Nat) (v : Nat)
    (h : v ∈ m.oldPte hides addrs) : ∃ e ∈ m.stalePte, ∀ fence ∈ e.fences, hides fence v = false := by
  unfold Mem.oldPte at h
  obtain ⟨⟨v, fences⟩, hp, rfl⟩ := List.mem_map.1 h
  obtain ⟨hz, hc⟩ := List.mem_filter.1 hp
  obtain ⟨e, he, rfl⟩ := List.mem_map.1 (List.of_mem_zip hz).2
  refine ⟨e, he, fun fence hf => ?_⟩
  simp at hc
  simpa using hc.2 fence hf

/-- One more store adds one old value, the one before it, and brings back none that a fence hides (R71, R75). -/
theorem Mem.oldPte_writeAll (m : Mem) (hides : PartialFence → Nat → Bool) (addrs stored : List Nat)
    (w v : Nat) (h : v ∈ (m.writeAll stored w).oldPte hides addrs) :
    v = m.readAll addrs ∨ v ∈ m.oldPte hides addrs := by
  by_cases he : (m.overwritten stored w).isEmpty = true
  · right
    have hrd : ∀ a, (m.writeAll stored w).read a = m.read a := fun a =>
      m.read_writeAll_of_lookup stored w a (by rw [List.isEmpty_iff.1 he]; rfl)
    have hs : (m.writeAll stored w).stalePte = m.stalePte := by simp [Mem.writeAll, he]
    unfold Mem.oldPte Mem.past at *
    rw [hs, Mem.readAll_congr _ _ _ fun a _ => hrd a] at h
    simpa [hrd] using h
  · have hs : (m.writeAll stored w).stalePte =
        { before := m.overwritten stored w, fences := [] } :: m.stalePte := by
      simp [Mem.writeAll, he]
    unfold Mem.oldPte Mem.past at *
    rw [hs] at h
    simp only [List.map_cons, pastWindows, m.rewind_writeAll stored addrs w, List.zip_cons_cons] at h
    obtain ⟨⟨v, fences⟩, hp, rfl⟩ := List.mem_map.1 h
    obtain ⟨hz, hc⟩ := List.mem_filter.1 hp
    rcases List.mem_cons.1 hz with hz | hz
    · cases hz
      exact .inl (cellsNumber_map_read m addrs)
    · by_cases hv : v = m.readAll addrs
      · exact .inl hv
      · refine .inr (List.mem_map.2 ⟨⟨v, fences⟩, List.mem_filter.2 ⟨hz, ?_⟩, rfl⟩)
        simp at hc ⊢
        exact ⟨hv, hc.2⟩

/-- Two memories in canonical form that read alike hold the same cells. -/
theorem Mem.cells_eq_of_read (m m' : Mem) (h : m.wf = true) (h' : m'.wf = true)
    (hr : ∀ a, m.read a = m'.read a) : m.cells = m'.cells := by
  obtain ⟨c, sc, sp⟩ := m
  obtain ⟨c', sc', sp'⟩ := m'
  rw [Mem.wf_iff] at h h'
  simp only [Mem.read] at *
  induction c generalizing c' with
  | nil =>
    cases c' with
    | nil => rfl
    | cons p rest =>
      have := hr p.1
      simp [List.lookup] at this
      exact absurd this.symm (h'.2 p List.mem_cons_self)
  | cons p rest ih =>
    have absent : ∀ (l : List Host.Cell) (k : Nat), (∀ q ∈ l, k < q.1) → l.lookup k = none := by
      intro l k hl
      rw [List.lookup_eq_none_iff]
      intro q hq
      have := hl q hq
      simp; omega
    cases c' with
    | nil =>
      have := hr p.1
      simp [List.lookup] at this
      exact absurd this (h.2 p List.mem_cons_self)
    | cons p' rest' =>
      obtain ⟨h1, h2⟩ := h
      obtain ⟨h1', h2'⟩ := h'
      rw [List.pairwise_cons] at h1 h1'
      have hpp : p.1 = p'.1 := by
        rcases lt_trichotomy p.1 p'.1 with hlt | heq | hgt
        · have := hr p.1
          rw [absent (p' :: rest') p.1 (by
            intro q hq
            rcases List.mem_cons.1 hq with rfl | hq
            · exact hlt
            · exact lt_trans hlt (h1'.1 q hq))] at this
          simp [List.lookup] at this
          exact absurd this (h2 p List.mem_cons_self)
        · exact heq
        · have := hr p'.1
          rw [absent (p :: rest) p'.1 (by
            intro q hq
            rcases List.mem_cons.1 hq with rfl | hq
            · exact hgt
            · exact lt_trans hgt (h1.1 q hq))] at this
          simp [List.lookup] at this
          exact absurd this.symm (h2' p' List.mem_cons_self)
      have hv : p.2 = p'.2 := by
        have := hr p.1
        have e : (p.1 == p'.1) = true := by simp [hpp]
        simpa [List.lookup, e] using this
      have hrest : rest = rest' := by
        apply ih ⟨h1.2, fun q hq => h2 q (List.mem_cons_of_mem _ hq)⟩ rest'
          ⟨h1'.2, fun q hq => h2' q (List.mem_cons_of_mem _ hq)⟩
        intro a
        by_cases ha : a = p.1
        · rw [absent rest a (fun q hq => ha ▸ h1.1 q hq),
            absent rest' a (fun q hq => by rw [ha, hpp]; exact h1'.1 q hq)]
        · have := hr a
          have e : (a == p.1) = false := by simp [ha]
          have e' : (a == p'.1) = false := by simp [hpp ▸ ha]
          simpa [List.lookup, e, e'] using this
      rw [hrest, Prod.ext hpp hv]

end Sys2Proof.Machine
end

