-- ==== Sys2Proof/Laws/Translate.lean ====
section
/-! SUPPORT. What a translation gives: untranslated accesses, a walk with nothing stale, and a leaf that maps the
address. -/

namespace Sys2Proof.Machine

open Sys2Proof

theorem readAll_bytesFrom (s : State) (a n : Nat) :
    s.mem.readAll (bytesFrom a n) = s.bytesAt a n := by
  have key : ∀ (l l' : List Nat), s.mem.readAll (l ++ l') =
      s.mem.readAll l + 256 ^ l.length * s.mem.readAll l' := by
    intro l l'
    induction l with
    | nil => simp [Mem.readAll]
    | cons b rest ih =>
      simp only [List.cons_append, Mem.readAll, ih, List.length_cons, pow_succ]
      ring
  induction n with
  | zero => rfl
  | succ n ih =>
    have : bytesFrom a (n + 1) = bytesFrom a n ++ [a + n] := by
      simp [bytesFrom, List.range_succ]
    rw [this, key, ih, length_bytesFrom]
    simp [Mem.readAll, State.bytesAt, Nat.mul_comm]

/-! ## Nothing stale -/

/-- With no write of `satp` pending, a translation uses `satp` (R71). -/
theorem State.satpFor_fresh (s : State) (acc : Access) (v : Word) (h : s.staleSatp = []) :
    s.satpFor acc v = s.satp := by
  unfold State.satpFor State.oldSatp
  rw [h]
  rfl

/-- Where a fence has covered every write of `satp` for the page, no old value is left (R71). -/
theorem State.oldSatp_of_covered (s : State) (v : Word)
    (h : ∀ e ∈ s.staleSatp, ∃ p ∈ e.pages, samePage p v = true) : s.oldSatp v = [] := by
  unfold State.oldSatp
  rw [List.filter_eq_nil_iff.2, List.map_nil]
  intro e he
  have := List.any_eq_true.2 (h e he)
  simp [this]

/-- A fence that names the page and the address space of `satp` covers every write of it so far (R71, R175). -/
theorem State.fenceSatp_covered (s : State) (vaddr asid : Option Word) (v : Word)
    (hv : vaddr.all (samePage · v) = true)
    (ha : (asid.all fun a => asidOf s.cfg a.toNat == satpAsid s.cfg s.satp) = true) :
    ∀ e ∈ s.fenceSatp vaddr asid, ∃ p ∈ e.pages, samePage p v = true := by
  unfold State.fenceSatp
  rw [if_pos ha]
  intro e he
  cases vaddr with
  | none => cases he
  | some p =>
    obtain ⟨e', -, rfl⟩ := List.mem_map.1 he
    exact ⟨p, List.mem_cons_self, hv⟩

/-- With no store pending, a walk reads memory (R71). -/
theorem State.pteFor_fresh (s : State) (acc : Access) (v : Word) (asid : Nat) (g : Bool) (a n : Nat)
    (h : s.mem.stalePte = []) : s.pteFor acc v asid g a n = s.bytesAt a n := by
  unfold State.pteFor
  dsimp only
  rw [Mem.oldPte_of_fresh _ _ _ h, readAll_bytesFrom]
  rfl

/-- An access that is not translated (R68): the physical address is the virtual one. -/
theorem State.translate_untranslated (s : State) (acc : Access) (v : Word) (h : Untranslated s acc) :
    s.translate acc v = .ok (s, v.toNat) := by
  unfold State.translate
  dsimp only
  split
  · rfl
  · next hn =>
    rcases h with h | h | ⟨h1, h2⟩
    · exact absurd (.inl h) hn
    · exact absurd (.inr h) hn
    · rw [s.satpFor_fresh acc v h1, h2]

/-! ## A walk -/

/-- `satp.MODE` names the scheme that `satpScheme` reads. -/
theorem State.satpScheme_of_names (s : State) (sch : Scheme) (h : s.satpNames sch) :
    satpScheme s.cfg s.satp = some sch := by
  unfold State.satpNames at h
  unfold satpScheme
  cases sch with
  | sv32 =>
    obtain ⟨hx, h⟩ := h
    rw [hx]
    have : s.satp.getLsbD 31 = true := by
      rw [BitVec.getLsbD, Nat.testBit_eq_decide_div_mod_eq]; simpa using h
    simp [this]
  | sv39 =>
    obtain ⟨hx, h⟩ := h
    rw [hx]
    have : s.satp.extractLsb' 60 4 = 8#4 := by
      apply BitVec.eq_of_toNat_eq
      rw [BitVec.extractLsb'_toNat, Nat.shiftRight_eq_div_pow, h]
      rfl
    simp [this]
  | sv48 =>
    obtain ⟨hx, h⟩ := h
    rw [hx]
    have : s.satp.extractLsb' 60 4 = 9#4 := by
      apply BitVec.eq_of_toNat_eq
      rw [BitVec.extractLsb'_toNat, Nat.shiftRight_eq_div_pow, h]
      rfl
    simp [this]

/-- The upper bits of a virtual address agree exactly where it lies in one of the two halves (R70 step 0). -/
theorem Scheme.canonical_iff (sch : Scheme) (v : Word) : sch.canonical v = true ↔ sch.holds v := by
  have key : ∀ m : Nat, 0 < m → m < 64 →
      ((v.setWidth m).signExtend 64 = v ↔ v.toNat < 2 ^ (m - 1) ∨ 2 ^ 64 - 2 ^ (m - 1) ≤ v.toNat) := by
    intro m h0 hm
    rw [← BitVec.toNat_inj, BitVec.toNat_signExtend]
    have hv := v.isLt
    have hpow : 2 ^ m = 2 * 2 ^ (m - 1) := by
      rw [← pow_succ']; congr 1; omega
    have hle : 2 ^ m * 2 ≤ 2 ^ 64 := by
      rw [← pow_succ]; exact Nat.pow_le_pow_right (by omega) (by omega)
    have hmod : v.toNat % 2 ^ m < 2 ^ m := Nat.mod_lt _ (by positivity)
    have hdm := Nat.div_add_mod v.toNat (2 ^ m)
    have h64 : 2 ^ 64 = 2 ^ m * 2 ^ (64 - m) := by rw [← pow_add]; congr 1; omega
    have hmsb : (v.setWidth m).msb = decide (2 ^ (m - 1) ≤ v.toNat % 2 ^ m) := by
      rw [BitVec.msb_eq_decide]; simp
    rw [hmsb, BitVec.toNat_setWidth, BitVec.toNat_setWidth,
      Nat.mod_eq_of_lt (a := v.toNat % 2 ^ m) (by omega)]
    have hdl : v.toNat / 2 ^ m < 2 ^ (64 - m) := by
      rw [Nat.div_lt_iff_lt_mul (by positivity), Nat.mul_comm, ← h64]; exact hv
    generalize hq : v.toNat / 2 ^ m = q at *
    generalize 2 ^ (m - 1) = h at *
    generalize hM : 2 ^ m = M at *
    generalize hr : v.toNat % M = r at *
    generalize hQ : 2 ^ (64 - m) = Q at *
    by_cases hb : h ≤ r
    · simp only [hb, decide_true, if_true]
      constructor
      · intro e; right; omega
      · rintro (e | e)
        · rcases Nat.eq_zero_or_pos q with rfl | hp
          · omega
          · have : M ≤ M * q := Nat.le_mul_of_pos_right _ hp
            omega
        · have hqQ : q + 1 = Q := by
            by_contra hne
            have : q + 2 ≤ Q := by omega
            have h2 : M * (q + 2) ≤ M * Q := Nat.mul_le_mul_left _ this
            rw [Nat.mul_add] at h2
            omega
          have : M * (q + 1) = M * Q := by rw [hqQ]
          rw [Nat.mul_add] at this
          omega
    · simp only [hb, decide_false, Bool.false_eq_true, if_false, Nat.add_zero]
      constructor
      · intro e; left; omega
      · rintro (e | e)
        · rcases Nat.eq_zero_or_pos q with rfl | hp
          · omega
          · have : M ≤ M * q := Nat.le_mul_of_pos_right _ hp
            omega
        · have hqQ : M * (q + 1) ≤ M * Q := Nat.mul_le_mul_left _ hdl
          rw [Nat.mul_add] at hqQ
          omega
  unfold Scheme.canonical Scheme.holds
  cases sch
  · simp
  · simpa using key 39 (by omega) (by omega)
  · simpa using key 48 (by omega) (by omega)

theorem pteIn_iff (s : State) (p : Region → Bool) (a size : Nat) :
    allIn s.cfg p (bytesFrom a size) = true ↔ PteIn s p a size := by
  unfold allIn PteIn
  rw [List.all_eq_true]
  constructor
  · intro h k hk
    have := h (a + k) ((mem_bytesFrom _ _ _).2 ⟨by omega, by omega⟩)
    cases hr : s.cfg.regionAt (a + k) with
    | none => simp [hr] at this
    | some r => exact ⟨r, rfl, by simpa [hr] using this⟩
  · intro h b hb
    rw [mem_bytesFrom] at hb
    obtain ⟨r, hr, hp⟩ := h (b - a) (by omega)
    rw [show a + (b - a) = b by omega] at hr
    simp [hr, hp]

/-- One level of a walk at a pointer (R70 step 4). -/
theorem State.walkLevel_pointer (s : State) (w : Walk) (g : Bool) (i table : Nat)
    (hf : s.mem.stalePte = []) (hr : PteReadable s (w.scheme.entry w.vaddr table i) w.scheme.pteSize)
    (hp : PtePointer (s.entryAt w.scheme w.vaddr table i)) :
    ∃ g', s.walkLevel w g i table =
      .pointer (w.scheme.target (s.entryAt w.scheme w.vaddr table i)) g' := by
  unfold State.walkLevel
  dsimp only
  rw [show table + w.scheme.vpn i w.vaddr * w.scheme.pteSize = w.scheme.entry w.vaddr table i from rfl,
    if_pos ((pteIn_iff _ _ _ _).2 hr), s.pteFor_fresh _ _ _ _ _ _ hf]
  have h0 : (s.entryAt w.scheme w.vaddr table i).testBit 0 = true := by
    rw [Nat.testBit_eq_decide_div_mod_eq]; unfold PtePointer at hp; simp; omega
  have h1 : (s.entryAt w.scheme w.vaddr table i).testBit 1 = false := by
    rw [Nat.testBit_eq_decide_div_mod_eq]; unfold PtePointer at hp; simp; omega
  have h2 : (s.entryAt w.scheme w.vaddr table i).testBit 2 = false := by
    rw [Nat.testBit_eq_decide_div_mod_eq]; unfold PtePointer at hp; simp; omega
  have h3 : (s.entryAt w.scheme w.vaddr table i).testBit 3 = false := by
    rw [Nat.testBit_eq_decide_div_mod_eq]; unfold PtePointer at hp; simp; omega
  unfold State.entryAt at *
  simp [h0, h1, h2, h3, Scheme.target, Scheme.ppn]

/-- One level of a walk at a leaf (R70 step 5). -/
theorem State.walkLevel_leaf (s : State) (w : Walk) (g : Bool) (i table : Nat)
    (hf : s.mem.stalePte = []) (hr : PteReadable s (w.scheme.entry w.vaddr table i) w.scheme.pteSize)
    (hl : PteLeaf (s.entryAt w.scheme w.vaddr table i)) :
    s.walkLevel w g i table =
      .done (s.leaf w i (w.scheme.entry w.vaddr table i) (s.entryAt w.scheme w.vaddr table i)) := by
  unfold State.walkLevel
  dsimp only
  rw [show table + w.scheme.vpn i w.vaddr * w.scheme.pteSize = w.scheme.entry w.vaddr table i from rfl,
    if_pos ((pteIn_iff _ _ _ _).2 hr), s.pteFor_fresh _ _ _ _ _ _ hf]
  obtain ⟨hi, hp⟩ := hl
  unfold PteInvalid at hi
  unfold PtePointer at hp
  unfold State.entryAt at *
  generalize s.bytesAt (w.scheme.entry w.vaddr table i) w.scheme.pteSize = pte at *
  have h0 : pte.testBit 0 = true := by
    by_contra h; exact hi (.inl (by simpa using h))
  have h12 : ¬ (pte.testBit 1 = false ∧ pte.testBit 2 = true) := fun h => hi (.inr h)
  have h13 : pte.testBit 1 = true ∨ pte.testBit 3 = true := by
    by_contra h
    push Not at h
    simp only [Nat.testBit_eq_decide_div_mod_eq, decide_eq_true_eq, ne_eq, decide_eq_false_iff_not,
      not_and] at *
    omega
  rw [if_neg (by simp [h0]; intro h; simpa [h] using h12), if_neg (by simpa using fun h => by simpa [h] using h13)]

/-- One level of a walk at an invalid or reserved entry (R70 step 3). -/
theorem State.walkLevel_invalid (s : State) (w : Walk) (g : Bool) (i table : Nat)
    (hf : s.mem.stalePte = []) (hr : PteReadable s (w.scheme.entry w.vaddr table i) w.scheme.pteSize)
    (hi : PteInvalid (s.entryAt w.scheme w.vaddr table i)) :
    s.walkLevel w g i table = .done (.raise (pageFault w.acc) w.vaddr) := by
  unfold State.walkLevel
  dsimp only
  rw [show table + w.scheme.vpn i w.vaddr * w.scheme.pteSize = w.scheme.entry w.vaddr table i from rfl,
    if_pos ((pteIn_iff _ _ _ _).2 hr), s.pteFor_fresh _ _ _ _ _ _ hf]
  unfold State.entryAt PteInvalid at *
  rw [if_pos (by simpa using hi)]

/-- One level of a walk outside readable main memory (R70 step 2). -/
theorem State.walkLevel_unreadable (s : State) (w : Walk) (g : Bool) (i table : Nat)
    (hr : ¬ PteReadable s (w.scheme.entry w.vaddr table i) w.scheme.pteSize) :
    s.walkLevel w g i table = .done (.raise (accessFault w.acc) w.vaddr) := by
  unfold State.walkLevel
  dsimp only
  rw [show table + w.scheme.vpn i w.vaddr * w.scheme.pteSize = w.scheme.entry w.vaddr table i from rfl,
    if_neg fun h => hr ((pteIn_iff _ _ _ _).1 h)]

/-- A walk that comes to a leaf is decided by it (R70 steps 2 to 4). -/
theorem State.walk_reachesLeaf (s : State) (w : Walk) (hf : s.mem.stalePte = []) (i table j a pte : Nat)
    (h : ReachesLeaf s w.scheme w.vaddr i table j a pte) :
    ∀ g, s.walk w g i table = s.leaf w j a pte := by
  induction h with
  | here i table hr hl =>
    intro g
    cases i <;> (unfold State.walk; rw [s.walkLevel_leaf w g _ table hf hr hl])
  | next i table j a pte hr hp _ ih =>
    intro g
    obtain ⟨g', hw⟩ := s.walkLevel_pointer w g (i + 1) table hf hr hp
    unfold State.walk
    rw [hw]
    exact ih g'

/-- A walk that comes to an invalid entry, or to a pointer at level 0, raises a page fault (R70 steps 3 and 4). -/
theorem State.walk_reachesInvalid (s : State) (w : Walk) (hf : s.mem.stalePte = []) (i table : Nat)
    (h : ReachesInvalid s w.scheme w.vaddr i table) :
    ∀ g, s.walk w g i table = .raise (pageFault w.acc) w.vaddr := by
  induction h with
  | here i table hr hi =>
    intro g
    cases i <;> (unfold State.walk; rw [s.walkLevel_invalid w g _ table hf hr hi])
  | deep table hr hp =>
    intro g
    obtain ⟨g', hw⟩ := s.walkLevel_pointer w g 0 table hf hr hp
    unfold State.walk
    rw [hw]
  | next i table hr hp _ ih =>
    intro g
    obtain ⟨g', hw⟩ := s.walkLevel_pointer w g (i + 1) table hf hr hp
    unfold State.walk
    rw [hw]
    exact ih g'

/-- A walk that comes to an entry outside readable main memory raises an access fault (R70 step 2). -/
theorem State.walk_reachesUnreadable (s : State) (w : Walk) (hf : s.mem.stalePte = []) (i table : Nat)
    (h : ReachesUnreadable s w.scheme w.vaddr i table) :
    ∀ g, s.walk w g i table = .raise (accessFault w.acc) w.vaddr := by
  induction h with
  | here i table hr =>
    intro g
    cases i <;> (unfold State.walk; rw [s.walkLevel_unreadable w g _ table hr])
  | next i table hr hp _ ih =>
    intro g
    obtain ⟨g', hw⟩ := s.walkLevel_pointer w g (i + 1) table hf hr hp
    unfold State.walk
    rw [hw]
    exact ih g'

theorem ReachesLeaf.level_le {s : State} {sch : Scheme} {v : Word} {i table j a pte : Nat}
    (h : ReachesLeaf s sch v i table j a pte) : j ≤ i := by
  induction h with
  | here => exact le_refl _
  | next _ _ _ _ _ _ _ _ ih => omega

theorem leafAllows_iff (s : State) (w : Walk) (pte : Nat) :
    s.leafAllows w pte = true ↔ LeafPermits s w.acc w.priv pte := by
  unfold State.leafAllows LeafPermits
  cases w.acc <;> cases w.priv <;> simp

/-- The low field of the PPN, which a superpage's entry leaves 0 (R70 step 6). -/
theorem Scheme.low_ppn (sch : Scheme) (j pte : Nat) (h : j ≤ sch.top) :
    sch.ppn pte % 2 ^ (sch.vpnBits * j) = pte / 1024 % 2 ^ (sch.vpnBits * j) := by
  unfold Scheme.ppn
  rw [show (2 : Nat) ^ 10 = 1024 by norm_num]
  apply Nat.mod_mod_of_dvd
  apply Nat.pow_dvd_pow
  cases sch <;> simp [Scheme.top, Scheme.vpnBits, Scheme.ppnBits] at * <;> omega

/-- The address a leaf gives (R70 step 8). -/
theorem leafAddress_eq (w : Walk) (j pte : Nat) (h : j ≤ w.scheme.top)
    (ha : pte / 1024 % 2 ^ (w.scheme.vpnBits * j) = 0) :
    leafAddress w j pte = w.scheme.under j pte w.vaddr := by
  have hl := w.scheme.low_ppn j pte h
  rw [ha] at hl
  unfold leafAddress Scheme.under Scheme.target
  dsimp only
  rw [Nat.div_mul_cancel (Nat.dvd_of_mod_eq_zero hl), pow_add]
  rfl

/-- An entry needs an update exactly where it is not yet used so (R70 step 7). -/
theorem needsAdUpdate_iff (acc : Access) (pte : Nat) : needsAdUpdate acc pte = true ↔ ¬ LeafUsed acc pte := by
  unfold needsAdUpdate LeafUsed
  cases acc <;> cases pte.testBit 6 <;> cases pte.testBit 7 <;> decide

/-- The walk of an access that is translated (R68, R70 steps 0 and 1). -/
def State.walkOf (s : State) (acc : Access) (v : Word) (sch : Scheme) : Walk :=
  { acc := acc, priv := s.effPriv acc, vaddr := v, scheme := sch, asid := satpAsid s.cfg s.satp }

/-- Translation with nothing stale: the walk from the root, where the scheme translates the address. -/
theorem State.translate_pagingOn (s : State) (acc : Access) (v : Word) (sch : Scheme)
    (hon : PagingOn s acc sch) :
    (¬ sch.holds v → s.translate acc v = .raise (pageFault acc) v) ∧
      (sch.holds v → s.translate acc v = s.walk (s.walkOf acc v sch) false sch.top (s.rootTable sch)) := by
  have hroot : satpPpn s.cfg s.satp * 4096 = s.rootTable sch := by
    have hm := hon.mode
    unfold State.satpNames at hm
    unfold satpPpn State.rootTable
    cases sch <;> (rw [hm.1]; simp [BitVec.extractLsb'_toNat])
  unfold State.translate
  dsimp only
  rw [if_neg (by simp [hon.supervisor, hon.lower]), s.satpFor_fresh acc v hon.fresh.1,
    s.satpScheme_of_names sch hon.mode]
  dsimp only
  rw [hroot]
  exact ⟨fun h => if_neg fun hc => h ((sch.canonical_iff v).1 hc), fun h => if_pos ((sch.canonical_iff v).2 h)⟩

/-- A forbidden A or D update raises the access fault of R70 or that of R394. -/
theorem adUpdateFault_cases (tick : Nat) (acc : Access) :
    adUpdateFault tick acc = accessFault acc ∨ adUpdateFault tick acc = .storeAccessFault := by
  unfold adUpdateFault
  split <;> simp

/-- For a store the two are one. -/
@[simp] theorem adUpdateFault_store (tick : Nat) : adUpdateFault tick .store = .storeAccessFault := by
  simp [adUpdateFault, accessFault]

/-- What a leaf that does not map the address does (R70 steps 5 and 6). -/
theorem State.leaf_unmapped (s : State) (acc : Access) (v : Word) (sch : Scheme) (j a pte : Nat)
    (hle : j ≤ sch.top) (h : ¬ LeafMaps s acc sch j pte) :
    s.leaf (s.walkOf acc v sch) j a pte = .raise (pageFault acc) v := by
  have hal := leafAllows_iff s (s.walkOf acc v sch) pte
  unfold State.leaf
  rw [show (s.walkOf acc v sch).scheme = sch from rfl, sch.low_ppn j pte hle]
  by_cases hp : s.leafAllows (s.walkOf acc v sch) pte = true
  · rw [if_neg (by simp [hp]), if_pos fun h0 => h ⟨hal.1 hp, h0⟩]
    rfl
  · rw [if_pos (by simpa using hp)]
    rfl

/-- What a leaf that maps the address does (R70 steps 7 and 8). -/
theorem State.leaf_maps (s : State) (acc : Access) (v : Word) (sch : Scheme) (j a pte : Nat)
    (hle : j ≤ sch.top) (h : LeafMaps s acc sch j pte) :
    s.leaf (s.walkOf acc v sch) j a pte =
      if needsAdUpdate acc pte then
        match s.cfg.pteAdUpdate with
        | .fault => .raise (pageFault acc) v
        | .hardware =>
          if allIn s.cfg (·.writable) (bytesFrom a sch.pteSize) then
            .ok (s.updateAd acc a, sch.under j pte v)
          else .raise (adUpdateFault s.tick acc) v
      else .ok (s, sch.under j pte v) := by
  have hp := (leafAllows_iff s (s.walkOf acc v sch) pte).2 h.1
  unfold State.leaf
  rw [if_neg (by simp [hp]), show (s.walkOf acc v sch).scheme = sch from rfl, sch.low_ppn j pte hle,
    if_neg (by simp [h.2]), leafAddress_eq (s.walkOf acc v sch) j pte hle h.2]
  rfl

/-- What the page tables map an address to is where the access goes, and nothing changes (R68, R70). -/
theorem State.translate_maps (s : State) (acc : Access) (v : Word) (p : Nat) (h : Maps s acc v p) :
    s.translate acc v = .ok (s, p) := by
  obtain ⟨sch, j, a, pte, hon, hv, hw, hm, hu, rfl⟩ := h
  rw [(s.translate_pagingOn acc v sch hon).2 hv,
    s.walk_reachesLeaf (s.walkOf acc v sch) hon.fresh.2 _ _ _ _ _ hw,
    s.leaf_maps acc v sch j a pte (ReachesLeaf.level_le hw) hm, if_neg fun hn => (needsAdUpdate_iff _ _).1 hn hu]

/-- An address the page tables do not map raises a page fault (R70 steps 0 and 3 to 7). -/
theorem State.translate_unmapped (s : State) (acc : Access) (v : Word) (h : Unmapped s acc v) :
    s.translate acc v = .raise (pageFault acc) v := by
  obtain ⟨sch, hon, h⟩ := h
  obtain ⟨hout, hin⟩ := s.translate_pagingOn acc v sch hon
  rcases h with h | ⟨hv, h⟩ | ⟨hv, j, a, pte, hw, h⟩
  · exact hout h
  · rw [hin hv, s.walk_reachesInvalid (s.walkOf acc v sch) hon.fresh.2 _ _ h]
    rfl
  · rw [hin hv, s.walk_reachesLeaf (s.walkOf acc v sch) hon.fresh.2 _ _ _ _ _ hw]
    have hle := ReachesLeaf.level_le hw
    by_cases hm : LeafMaps s acc sch j pte
    · obtain ⟨hu, hc⟩ := h.resolve_left fun hn => hn hm
      rw [s.leaf_maps acc v sch j a pte hle hm, if_pos ((needsAdUpdate_iff _ _).2 hu), hc]
    · exact s.leaf_unmapped acc v sch j a pte hle hm

/-- A walk that leaves readable main memory raises an access fault (R70 step 2). -/
theorem State.translate_unreadable (s : State) (acc : Access) (v : Word) (sch : Scheme)
    (hon : PagingOn s acc sch) (hv : sch.holds v)
    (h : ReachesUnreadable s sch v sch.top (s.rootTable sch)) :
    s.translate acc v = .raise (accessFault acc) v := by
  rw [(s.translate_pagingOn acc v sch hon).2 hv,
    s.walk_reachesUnreadable (s.walkOf acc v sch) hon.fresh.2 _ _ h]
  rfl

/-- Where an access is found is where translation takes it, and nothing changes. -/
theorem State.translate_finds (s : State) (acc : Access) (v : Word) (p : Nat)
    (h : Finds s acc v.toNat p) : s.translate acc v = .ok (s, p) := by
  rcases h with ⟨h, rfl⟩ | h
  · exact s.translate_untranslated acc v h
  · rw [BitVec.ofNat_toNat, BitVec.setWidth_eq] at h
    exact s.translate_maps acc v p h

end Sys2Proof.Machine
end

