-- ==== Sys2Proof/Laws/Ops.lean ====
section
/-! SUPPORT. What each shared operation can do, said once: sequencing, translation, data accesses, taking an
exception. -/

namespace Sys2Proof.Machine

open Sys2Proof

/-! ## Sequencing -/

@[simp] theorem Res.bind_ok {α β : Type} (a : α) (k : α → Res β) : (Res.ok a).bind k = k a := rfl

@[simp] theorem Res.bind_raise {α β : Type} (e : Exc) (t : Word) (k : α → Res β) :
    (Res.raise e t : Res α).bind k = .raise e t := rfl

@[simp] theorem Res.bind_refuse {α β : Type} (r : Refusal) (k : α → Res β) :
    (Res.refuse r : Res α).bind k = .refuse r := rfl

/-- A sequence answers a value exactly when both its parts do. -/
theorem Res.bind_eq_ok {α β : Type} (r : Res α) (k : α → Res β) (b : β) :
    r.bind k = .ok b ↔ ∃ a, r = .ok a ∧ k a = .ok b := by
  cases r <;> simp [Res.bind]

@[simp] theorem State.commit_ok (s t : State) : s.commit (.ok t) = .next t := rfl

@[simp] theorem State.commit_raise (s : State) (e : Exc) (tval : Word) :
    s.commit (.raise e tval) = .next (s.takeException e tval) := rfl

@[simp] theorem State.commit_refuse (s : State) (r : Refusal) : s.commit (.refuse r) = .refused r := rfl

/-- A rule's outcome is a next state in one of two ways: its own effect, or a trap (R392 step 7). -/
theorem State.commit_eq_next (s t : State) (r : Res State) :
    s.commit r = .next t ↔ r = .ok t ∨ ∃ e tval, r = .raise e tval ∧ t = s.takeException e tval := by
  cases r <;> simp [State.commit, eq_comm]

/-! ## What an access may change -/

/-- `t` differs from `s` in memory alone, and in the memory kept from before a fetch; both stay
canonical. -/
structure OnlyMem (s t : State) : Prop where
  same : t = { s with mem := t.mem, beforeFetch := t.beforeFetch }
  wf : s.mem.wf = true → t.mem.wf = true
  kept : ∀ m, t.beforeFetch = some m → s.beforeFetch = some m ∨ m = s.mem ∨ (s.mem.wf = true → m.wf = true)

theorem OnlyMem.refl (s : State) : OnlyMem s s := ⟨rfl, id, fun _ h => .inl h⟩

theorem OnlyMem.trans {s t u : State} (h : OnlyMem s t) (h' : OnlyMem t u) : OnlyMem s u where
  same := by rw [h'.same, h.same]
  wf := fun hw => h'.wf (h.wf hw)
  kept := fun m hm => by
    rcases h'.kept m hm with hk | rfl | hk
    · exact h.kept m hk
    · exact .inr (.inr h.wf)
    · exact .inr (.inr fun hw => hk (h.wf hw))

/-! ## Translation -/

theorem State.updateAd_onlyMem (s : State) (acc : Access) (a : Nat) : OnlyMem s (s.updateAd acc a) where
  same := rfl
  wf := fun h => Mem.wf_writeAll _ _ _ h
  kept := fun m hm => by
    unfold State.updateAd at hm
    dsimp only at hm
    split at hm
    · cases hb : s.beforeFetch with
      | none => rw [hb] at hm; simp at hm; exact .inr (.inl hm.symm)
      | some b => rw [hb] at hm; simp at hm; exact .inl (by rw [hm])
    · exact .inl hm

theorem State.leaf_onlyMem (s t : State) (w : Walk) (i a pte pa : Nat)
    (h : s.leaf w i a pte = .ok (t, pa)) : OnlyMem s t := by
  unfold State.leaf at h
  split at h
  · cases h
  · split at h
    · cases h
    · split at h
      · split at h
        · cases h
        · split at h
          · cases h; exact s.updateAd_onlyMem _ _
          · cases h
      · cases h; exact OnlyMem.refl s

theorem State.walkLevel_onlyMem (s t : State) (w : Walk) (g : Bool) (i table pa : Nat)
    (h : s.walkLevel w g i table = .done (.ok (t, pa))) : OnlyMem s t := by
  unfold State.walkLevel at h
  dsimp only at h
  split at h
  · split at h
    · cases h
    · split at h
      · cases h
      · injection h with h
        exact s.leaf_onlyMem t w i _ _ pa h
  · cases h

theorem State.walk_onlyMem (s t : State) (w : Walk) (i : Nat) (g : Bool) (table pa : Nat)
    (h : s.walk w g i table = .ok (t, pa)) : OnlyMem s t := by
  induction i generalizing g table with
  | zero =>
    unfold State.walk at h
    split at h
    · cases h
    · next r hr => exact s.walkLevel_onlyMem t w g 0 table pa (h ▸ hr)
  | succ i ih =>
    unfold State.walk at h
    split at h
    · exact ih _ _ h
    · next r hr => exact s.walkLevel_onlyMem t w g (i + 1) table pa (h ▸ hr)

/-- A translation changes nothing but a PTE in memory (R70 step 7). -/
theorem State.translate_onlyMem (s t : State) (acc : Access) (v : Word) (pa : Nat)
    (h : s.translate acc v = .ok (t, pa)) : OnlyMem s t := by
  unfold State.translate at h
  dsimp only at h
  split at h
  · cases h; exact OnlyMem.refl s
  · split at h
    · cases h; exact OnlyMem.refl s
    · split at h
      · exact s.walk_onlyMem t _ _ _ _ _ h
      · cases h

theorem State.physical_onlyMem (s t : State) (op : MemOp) (v : Word) (n : Nat) (l : List Nat)
    (h : s.physical op v n = .ok (t, l)) : OnlyMem s t := by
  unfold State.physical at h
  rw [Res.bind_eq_ok] at h
  obtain ⟨⟨s', pa⟩, h1, h2⟩ := h
  dsimp only at h2
  split at h2
  · cases h2; exact s.translate_onlyMem _ _ _ _ h1
  · cases h2

theorem State.physicalBytes_onlyMem (s t : State) (op : MemOp) (n : Nat) (v : Word) (l : List Nat)
    (h : s.physicalBytes op n v = .ok (t, l)) : OnlyMem s t := by
  induction n generalizing s v l with
  | zero => cases h; exact OnlyMem.refl _
  | succ n ih =>
    unfold State.physicalBytes at h
    rw [Res.bind_eq_ok] at h
    obtain ⟨⟨s1, l1⟩, h1, h2⟩ := h
    rw [Res.bind_eq_ok] at h2
    obtain ⟨⟨s2, l2⟩, h2, h3⟩ := h2
    cases h3
    exact (s.physical_onlyMem _ _ _ _ _ h1).trans (ih _ _ _ h2)

theorem State.resolve_onlyMem (s t : State) (op : MemOp) (v : Word) (n : Nat) (l : List Nat)
    (h : s.resolve op v n = .ok (t, l)) : OnlyMem s t := by
  unfold State.resolve at h
  split at h
  · exact s.physical_onlyMem _ _ _ _ _ h
  · split at h
    · exact s.physicalBytes_onlyMem _ _ _ _ _ h
    · exact s.physicalBytes_onlyMem _ _ _ _ _ h
    · cases h

/-- Bytes outside the `io` regions are read or written in the state as it is. -/
theorem State.mainBytes_eq_ok (s t : State) (l l' : List Nat) (h : s.mainBytes l = .ok (t, l')) :
    t = s ∧ l' = l := by
  unfold State.mainBytes at h
  split at h
  · cases h; exact ⟨rfl, rfl⟩
  · cases h

/-- Resolving a data access changes nothing but PTEs in memory. -/
theorem State.dataBytes_onlyMem (s t : State) (op : MemOp) (v : Word) (n : Nat) (l : List Nat)
    (h : s.dataBytes op v n = .ok (t, l)) : OnlyMem s t := by
  unfold State.dataBytes at h
  rw [Res.bind_eq_ok] at h
  obtain ⟨⟨s', l'⟩, h1, h2⟩ := h
  obtain ⟨rfl, rfl⟩ := State.mainBytes_eq_ok _ _ _ _ h2
  exact s.resolve_onlyMem _ _ _ _ _ h1

theorem State.fetchParcel_onlyMem (s t : State) (v : Word) (p : BitVec 16)
    (h : s.fetchParcel v = .ok (t, p)) : OnlyMem s t := by
  unfold State.fetchParcel at h
  rw [Res.bind_eq_ok] at h
  obtain ⟨⟨s', l⟩, h1, h2⟩ := h
  rw [Res.bind_eq_ok] at h2
  obtain ⟨⟨s'', l'⟩, h2, h3⟩ := h2
  obtain ⟨rfl, rfl⟩ := State.mainBytes_eq_ok _ _ _ _ h2
  cases h3
  exact s.physical_onlyMem _ _ _ _ _ h1

/-- A fetch changes nothing but PTEs in memory (R66, R70 step 7). -/
theorem State.fetch_onlyMem (s t : State) (w : BitVec 32) (h : s.fetch = .ok (t, w)) :
    OnlyMem s t := by
  unfold State.fetch at h
  rw [Res.bind_eq_ok] at h
  obtain ⟨⟨s1, lo⟩, h1, h2⟩ := h
  dsimp only at h2
  split at h2
  · rw [Res.bind_eq_ok] at h2
    obtain ⟨⟨s2, hi⟩, h2, h3⟩ := h2
    cases h3
    refine (s.fetchParcel_onlyMem _ _ _ h1).trans (s1.fetchParcel_onlyMem _ (s.pcPlus 2) hi ?_)
    cases hr : s1.fetchParcel (s.pcPlus 2) with
    | ok a => rw [hr] at h2; exact h2
    | raise e u => rw [hr] at h2; cases h2
    | refuse r => rw [hr] at h2; cases h2
  · cases h2; exact s.fetchParcel_onlyMem _ _ _ h1

/-! ## Accesses every check allows -/

theorem State.bytesAt_lt (s : State) (a n : Nat) : s.bytesAt a n < 256 ^ n := by
  rw [← readAll_bytesFrom]
  simpa using s.mem.readAll_lt (bytesFrom a n)

/-- Main memory with the attributes an access needs passes the region check, and holds no `io` byte. -/
theorem State.allowed_bytes (s : State) (p : Region → Bool) (a n : Nat)
    (h : ∀ k, k < n → ∃ r, s.cfg.regionAt (a + k) = some r ∧ p r = true ∧ r.io = false) :
    allIn s.cfg p (bytesFrom a n) = true ∧
      s.mainBytes (bytesFrom a n) = .ok (s, bytesFrom a n) := by
  have hr : ∀ b ∈ bytesFrom a n, ∃ r, s.cfg.regionAt b = some r ∧ p r = true ∧ r.io = false := by
    intro b hb
    rw [mem_bytesFrom] at hb
    have := h (b - a) (by omega)
    rwa [show a + (b - a) = b by omega] at this
  constructor
  · unfold allIn
    rw [List.all_eq_true]
    intro b hb
    obtain ⟨r, hr, hp, -⟩ := hr b hb
    simp [hr, hp]
  · have : ioByte s.cfg (bytesFrom a n) = none := by
      unfold ioByte
      rw [List.find?_eq_none]
      intro b hb
      obtain ⟨r, hr, -, hi⟩ := hr b hb
      simp [hr, hi]
    unfold State.mainBytes
    rw [this]

/-- An access that every check allows resolves to its bytes in physical memory (R64, R65). -/
theorem State.resolve_reaches (s : State) (op : MemOp) (v : Word) (n p : Nat)
    (h : Reaches s op v.toNat n p) : s.resolve op v n = .ok (s, bytesFrom p n) := by
  simp [State.resolve, h.aligned, State.physical, s.translate_finds op.access v p h.found,
    (s.allowed_bytes op.allowed p n h.allowed).1]

/-- The physical bytes of an access that every check allows (R64, R65). -/
theorem State.dataBytes_reaches (s : State) (op : MemOp) (v : Word) (n p : Nat)
    (h : Reaches s op v.toNat n p) : s.dataBytes op v n = .ok (s, bytesFrom p n) := by
  simp [State.dataBytes, s.resolve_reaches op v n p h, (s.allowed_bytes op.allowed p n h.allowed).2]

/-- The bytes a store leaves (R65). -/
theorem StoredBytes.of_writeAll (s : State) (a n v : Nat) (t : State)
    (h : t.mem = s.mem.writeAll (bytesFrom a n) v) : StoredBytes s t a n v where
  stored := fun k hk => by rw [h]; exact s.mem.read_writeAll n a v k hk
  outside := fun b hb => by
    rw [h]
    exact Mem.read_writeAll_of_not_mem _ _ _ _ (by rw [mem_bytesFrom]; omega)

/-! ## Results in registers -/

theorem WroteX.congr {s t : State} {rd : Reg} {v w pc pc' : Int} (h : WroteX s t rd v pc)
    (hv : s.wrap v = s.wrap w) (hp : s.wrap pc = s.wrap pc') : WroteX s t rd w pc' where
  pc := by rw [← hp]; exact h.pc
  counted := h.counted
  value := by rw [← hv]; exact h.value
  others := h.others
  bytes := h.bytes
  beside := h.beside

/-- What a register write and the retirement leave. -/
theorem WroteX.of_setX (s : State) (rd : Reg) (v target : Word)
    (ht : target.toNat < s.modulus) :
    WroteX s ((s.setX rd v).retireAt target) rd v.toNat target.toNat where
  pc := by
    rw [s.wrap_toNat, Xlen.norm_of_lt _ _ ht]; rfl
  counted := by simp
  value := s.ux_setX_self rd v
  others := fun r hr => s.ux_setX_other rd r v hr
  bytes := fun a => by simp
  beside := by
    unfold State.besideX State.still State.setX
    split <;> rfl

theorem State.retire_setX (s : State) (rd : Reg) (v : Word) (len : Nat) :
    (s.setX rd v).retire len = (s.setX rd v).retireAt (s.pcPlus (BitVec.ofNat 64 len)) := by
  simp [State.retire, State.pcPlus]

theorem State.pcPlus_lt (s : State) (o : Word) : (s.pcPlus o).toNat < s.modulus := Xlen.norm_lt _ _

/-- `putX` completes with its value in the register (R23). -/
theorem State.putX_computes (s : State) (rd : Reg) (v : Word) (n : Int) (len : Nat)
    (h : s.wrap v.toNat = s.wrap n) :
    ∃ t, s.putX rd v len = .next t ∧ WroteX s t rd n (s.pc.toNat + len) := by
  refine ⟨_, rfl, ?_⟩
  rw [State.retire_setX]
  refine (WroteX.of_setX s rd v _ (s.pcPlus_lt _)).congr h ?_
  rw [s.wrap_toNat, Xlen.norm_of_lt _ _ (s.pcPlus_lt _), State.pcPlus_toNat,
    s.wrap_congr (v := s.pc.toNat + (BitVec.ofNat 64 len).toInt) (w := s.pc.toNat + len)]
  rw [BitVec.toInt_eq_toNat_cond, BitVec.toNat_ofNat]
  split <;> omega

/-- A jump or branch that is not checked, with no register written. -/
theorem State.retireAt_goesTo (s : State) (target : Word) (ht : target.toNat < s.modulus) :
    WroteX s (s.retireAt target) 0 0 target.toNat := by
  have := WroteX.of_setX s 0 0 target ht
  simpa [State.setX] using this

/-! ## Traps -/

/-- Clearing the low bit. -/
theorem clearOne_toNat (v : Word) : (v &&& ~~~1#64).toNat = v.toNat / 2 * 2 := by
  have : v &&& ~~~1#64 = (v >>> 1) <<< 1 := by
    ext i hi
    interval_cases i <;> simp
  rw [this]
  simp [BitVec.toNat_shiftLeft, BitVec.toNat_ushiftRight, Nat.shiftRight_eq_div_pow, Nat.shiftLeft_eq]
  have := v.isLt
  omega

/-- Clearing the two low bits. -/
theorem clearTwo_toNat (v : Word) : (v &&& ~~~3#64).toNat = v.toNat / 4 * 4 := by
  have : v &&& ~~~3#64 = (v >>> 2) <<< 2 := by
    ext i hi
    interval_cases i <;> simp
  rw [this]
  simp [BitVec.toNat_shiftLeft, BitVec.toNat_ushiftRight, Nat.shiftRight_eq_div_pow, Nat.shiftLeft_eq]
  have := v.isLt
  omega

theorem causeWord_toNat (s : State) (interrupt : Bool) (code : Nat) (h : code < 16) :
    (causeWord s.cfg.xlen interrupt code).toNat = s.causeNumber interrupt code := by
  unfold causeWord State.causeNumber State.modulus
  cases s.cfg.xlen <;> cases interrupt <;> (interval_cases code <;> decide)

theorem vectorTarget_toNat (s : State) (tvec : Word) (interrupt : Bool) (code : Nat) :
    (vectorTarget s.cfg.xlen tvec interrupt code).toNat = s.handler tvec interrupt code := by
  have hb := clearTwo_toNat tvec
  have hm : tvec.extractLsb' 0 2 = 1#2 ↔ tvec.toNat % 4 = 1 := by
    rw [← BitVec.toNat_inj]
    simp [BitVec.extractLsb'_toNat]
  unfold vectorTarget State.handler
  dsimp only
  by_cases h : interrupt = true ∧ tvec.extractLsb' 0 2 = 1#2
  · rw [if_pos h, if_pos ⟨h.1, hm.1 h.2⟩, ← s.wrap_toNat]
    apply s.wrap_congr
    rw [BitVec.toNat_add, hb, BitVec.toNat_ofNat]
    omega
  · rw [if_neg h, if_neg (fun h' => h ⟨h'.1, hm.2 h'.2⟩), ← s.wrap_toNat, hb]
    rfl

theorem epcMask_of_aligned (s : State) (h : AtInstruction s) : epcMask s.cfg s.pc = s.pc := by
  have ha := h.aligned
  have hn : s.cfg.xlen.norm s.pc = s.pc := Xlen.norm_of_lt _ _ h.sized
  have : s.pc &&& (if s.cfg.extC then ~~~1#64 else ~~~3#64) = s.pc := by
    apply BitVec.eq_of_toNat_eq
    unfold Config.ialignBytes at ha
    split at ha
    · next hc => rw [if_pos hc, clearOne_toNat]; omega
    · next hc => rw [if_neg hc, clearTwo_toNat]; omega
  unfold epcMask
  rw [this, hn]

theorem State.delegated_exception (s : State) (code : Nat) :
    s.delegated false code = true ↔ s.goesToS code := by
  simp [State.delegated, State.goesToS, and_assoc]

/-- What taking an exception leaves (R400), in the mode R399 says. -/
theorem State.takeException_trapped (s : State) (e : Exc) (tval : Word) (h : AtInstruction s)
    (ht : tval.toNat < s.modulus) : Trapped s (s.takeException e tval) e.code tval.toNat := by
  have hc : e.code < 16 := by cases e <;> decide
  have hd : s.discardFetch = s := by
    have hb := h.fetched
    cases s
    simp only at hb
    subst hb
    rfl
  have hn : s.cfg.xlen.norm tval = tval := Xlen.norm_of_lt _ _ ht
  have he := epcMask_of_aligned s h
  unfold State.takeException
  rw [hd]
  constructor
  · intro hg
    have hg := (s.delegated_exception e.code).2 hg
    unfold State.trapEntry
    dsimp only
    rw [if_pos hg]
    exact ⟨he, causeWord_toNat s false e.code hc, by simp [hn], rfl, rfl, rfl, rfl, rfl,
      vectorTarget_toNat s _ false e.code, fun r => rfl, fun a => rfl, rfl⟩
  · intro hg
    have hg : ¬ s.delegated false e.code = true := fun h => hg ((s.delegated_exception e.code).1 h)
    unfold State.trapEntry
    dsimp only
    rw [if_neg hg]
    exact ⟨he, causeWord_toNat s false e.code hc, by simp [hn], rfl, rfl, rfl, rfl, rfl,
      vectorTarget_toNat s _ false e.code, fun r => rfl, fun a => rfl, rfl⟩

/-- A rule that raises takes the exception. -/
theorem State.commit_raise_trapped (s : State) (e : Exc) (tval : Word) (h : AtInstruction s)
    (ht : tval.toNat < s.modulus) :
    ∃ t, s.commit (.raise e tval) = .next t ∧ Trapped s t e.code tval.toNat :=
  ⟨_, rfl, s.takeException_trapped e tval h ht⟩

end Sys2Proof.Machine
end

