-- ==== Sys2Proof/Laws/Effects.lean ====
section
/-! SUPPORT. What each shape of `Machine/Effects.lean` comes to, one lemma per way it can end, and what its
state leaves. -/

namespace Sys2Proof.Machine

open Sys2Proof

/-! ## Control transfer -/

theorem State.branch_not_taken (s : State) (o : Word) : s.branch false o = .next (s.retire 4) := rfl

theorem State.branch_taken (s : State) (o : Word)
    (h : (s.pcPlus o).toNat % s.cfg.ialignBytes = 0) :
    s.branch true o = .next (s.retireAt (s.pcPlus o)) := by
  simp [State.branch, State.checkTarget, h]

theorem State.branch_misaligned (s : State) (o : Word)
    (h : (s.pcPlus o).toNat % s.cfg.ialignBytes ≠ 0) :
    s.branch true o = .next (s.takeException .instructionAddressMisaligned (s.pcPlus o)) := by
  simp [State.branch, State.checkTarget, h]

theorem State.jump_aligned (s : State) (rd : Reg) (t : Word) (h : t.toNat % s.cfg.ialignBytes = 0) :
    s.jump rd t = .next ((s.setX rd (s.pcPlus 4)).retireAt t) := by
  simp [State.jump, State.checkTarget, h]

theorem State.jump_misaligned (s : State) (rd : Reg) (t : Word)
    (h : t.toNat % s.cfg.ialignBytes ≠ 0) :
    s.jump rd t = .next (s.takeException .instructionAddressMisaligned t) := by
  simp [State.jump, State.checkTarget, h]

/-! ## Loads, stores and atomics that every check allows -/

theorem State.loadX_reaches (s : State) (rd : Reg) (v : Word) (n : Nat) (ext : Word → Word) (len : Nat) (p : Nat)
    (h : Reaches s .load v.toNat n p) :
    s.loadX rd v n ext len = s.putX rd (ext (BitVec.ofNat 64 (s.bytesAt p n))) len := by
  simp [State.loadX, State.load, s.dataBytes_reaches .load v n p h, readAll_bytesFrom, State.putX]

theorem State.storeX_reaches (s : State) (v : Word) (n : Nat) (w : Word) (len : Nat) (p : Nat)
    (h : Reaches s .store v.toNat n p) :
    s.storeX v n w len =
      .next (State.retire { s with mem := s.mem.writeAll (bytesFrom p n) w.toNat } len) := by
  simp [State.storeX, State.store, s.dataBytes_reaches .store v n p h]

theorem firstByte_bytesFrom (a n : Nat) (h : 0 < n) : firstByte (bytesFrom a n) = a := by
  obtain ⟨k, rfl⟩ := Nat.exists_eq_succ_of_ne_zero (Nat.pos_iff_ne_zero.1 h)
  rw [bytesFrom_succ]; rfl

theorem State.lrX_reaches (s : State) (rd rs1 : Reg) (n : Nat) (ext : Word → Word) (hn : 0 < n) (p : Nat)
    (h : Reaches s .lr (s.getX rs1).toNat n p) :
    s.lrX rd rs1 n ext =
      State.putX { s with resv := some { addr := p, size := n } } rd
        (ext (BitVec.ofNat 64 (s.bytesAt p n))) 4 := by
  simp [State.lrX, State.loadReserve, s.dataBytes_reaches .lr _ n p h, readAll_bytesFrom, State.putX,
    firstByte_bytesFrom _ n hn]

theorem State.scX_reaches (s : State) (rd rs2 rs1 : Reg) (n : Nat) (hn : 0 < n) (p : Nat)
    (h : Reaches s .sc (s.getX rs1).toNat n p) :
    s.scX rd rs2 rs1 n =
      if s.scSucceeds p n then
        State.putX { s with
          mem := s.mem.writeAll (bytesFrom p n) (s.getX rs2).toNat, resv := none } rd 0 4
      else State.putX { s with resv := none } rd 1 4 := by
  unfold State.scX State.storeConditional
  rw [s.resolve_reaches .sc _ n p h]
  dsimp only [Res.bind_ok]
  rw [firstByte_bytesFrom _ n hn, (s.allowed_bytes _ p n h.allowed).2]
  split <;> rfl

theorem State.amoX_reaches (s : State) (rd rs2 rs1 : Reg) (n : Nat) (ext : Word → Word)
    (op : Word → Word → Word) (p : Nat)
    (h : Reaches s .amo (s.getX rs1).toNat n p) :
    s.amoX rd rs2 rs1 n ext op =
      State.putX { s with
        mem := s.mem.writeAll (bytesFrom p n)
          (op (BitVec.ofNat 64 (s.bytesAt p n)) (s.getX rs2)).toNat } rd
        (ext (BitVec.ofNat 64 (s.bytesAt p n))) 4 := by
  simp [State.amoX, State.amo, s.dataBytes_reaches .amo _ n p h, readAll_bytesFrom, State.putX]

/-! ## Floating point that runs -/

theorem State.fpCheck_on {α : Type} (s : State) (i : Instr) (k : Res α) (h : s.mstatus.fs ≠ 0) :
    s.fpCheck i k = k := if_neg h

theorem State.fpCheck_off {α : Type} (s : State) (i : Instr) (k : Res α) (h : s.mstatus.fs = 0) :
    s.fpCheck i k = s.illegal i := if_pos h

theorem State.fpRounded_ready {α : Type} (s : State) (i : Instr) (rm : BitVec 3) (mode : Rounding)
    (k : Rounding → Res α) (h : FpReady s rm mode) : s.fpRounded i rm k = k mode := by
  simp [State.fpRounded, s.fpCheck_on i _ h.1, h.2]

theorem State.fpRounded_reserved {α : Type} (s : State) (i : Instr) (rm : BitVec 3)
    (k : Rounding → Res α) (h : s.rounding rm = none) : s.fpRounded i rm k = s.illegal i := by
  unfold State.fpRounded State.fpCheck
  split
  · rfl
  · rw [h]

theorem State.fpS_ready (s : State) (i : Instr) (rd : Reg) (rm : BitVec 3) (mode : Rounding)
    (op : Rounding → FpResult) (h : FpReady s rm mode) :
    s.fpS i rd rm op = .next ((s.putS rd (op mode)).retire 4) := by
  simp [State.fpS, s.fpRounded_ready i rm mode _ h]

theorem State.fpD_ready (s : State) (i : Instr) (rd : Reg) (rm : BitVec 3) (mode : Rounding)
    (op : Rounding → FpResult) (h : FpReady s rm mode) :
    s.fpD i rd rm op = .next ((s.putD rd (op mode)).retire 4) := by
  simp [State.fpD, s.fpRounded_ready i rm mode _ h]

theorem State.fpToX_ready (s : State) (i : Instr) (rd : Reg) (rm : BitVec 3) (mode : Rounding)
    (t : IntType) (op : Rounding → Int × FpFlags) (h : FpReady s rm mode) :
    s.fpToX i rd rm t op =
      .next (((s.setX rd (t.toWord (op mode).1)).accrue (op mode).2).retire 4) := by
  simp [State.fpToX, s.fpRounded_ready i rm mode _ h]

theorem State.fpX_on (s : State) (i : Instr) (rd : Reg) (v : Word) (fl : FpFlags)
    (h : s.mstatus.fs ≠ 0) : s.fpX i rd v fl = .next (((s.setX rd v).accrue fl).retire 4) := by
  simp [State.fpX, s.fpCheck_on i _ h]

theorem State.fpExactS_on (s : State) (i : Instr) (rd : Reg) (r : FpResult) (h : s.mstatus.fs ≠ 0) :
    s.fpExactS i rd r = .next ((s.putS rd r).retire 4) := by
  simp [State.fpExactS, s.fpCheck_on i _ h]

theorem State.fpExactD_on (s : State) (i : Instr) (rd : Reg) (r : FpResult) (h : s.mstatus.fs ≠ 0) :
    s.fpExactD i rd r = .next ((s.putD rd r).retire 4) := by
  simp [State.fpExactD, s.fpCheck_on i _ h]

theorem State.fpLoadS_reaches (s : State) (i : Instr) (rd : Reg) (v : Word) (len : Nat)
    (hf : s.mstatus.fs ≠ 0) (p : Nat)
    (h : Reaches s .load v.toNat 4 p) :
    s.fpLoadS i rd v len =
      .next ((s.setS rd ((BitVec.ofNat 64 (s.bytesAt p 4)).setWidth 32)).retire len) := by
  simp [State.fpLoadS, s.fpCheck_on i _ hf, State.load, s.dataBytes_reaches .load v 4 p h,
    readAll_bytesFrom]

theorem State.fpLoadD_reaches (s : State) (i : Instr) (rd : Reg) (v : Word) (len : Nat)
    (hf : s.mstatus.fs ≠ 0) (p : Nat)
    (h : Reaches s .load v.toNat 8 p) :
    s.fpLoadD i rd v len =
      .next ((s.setF rd (BitVec.ofNat 64 (s.bytesAt p 8))).retire len) := by
  simp [State.fpLoadD, s.fpCheck_on i _ hf, State.load, s.dataBytes_reaches .load v 8 p h,
    readAll_bytesFrom]

theorem State.fpStore_reaches (s : State) (i : Instr) (rs2 : Reg) (v : Word) (n len : Nat)
    (hf : s.mstatus.fs ≠ 0) (p : Nat)
    (h : Reaches s .store v.toNat n p) :
    s.fpStore i rs2 v n len =
      .next (State.retire
        { s with mem := s.mem.writeAll (bytesFrom p n) (s.getF rs2).toNat } len) := by
  simp [State.fpStore, s.fpCheck_on i _ hf, State.store, s.dataBytes_reaches .store v n p h]

/-! ## What their states leave -/

theorem State.retire_pc_toNat (s : State) (len : Nat) (h : len < 2 ^ 63) :
    (s.retire len).pc.toNat = s.wrap (s.pc.toNat + len) := by
  unfold State.retire
  rw [State.retireAt_pc, State.pcPlus_toNat]
  apply s.wrap_congr
  rw [BitVec.toInt_eq_toNat_cond, BitVec.toNat_ofNat, Nat.mod_eq_of_lt (by omega)]
  split <;> omega

/-- A floating-point register write, with flags, and the retirement. -/
theorem WroteF.of_setF (s : State) (rd : Reg) (v : Word) (fl : FpFlags) (len : Nat)
    (h : len < 2 ^ 63) :
    WroteF s (((s.setF rd v).accrue fl).retire len) rd
      (if s.cfg.flen64 then v.toNat else v.toNat % 2 ^ 32) fl len where
  pc := by
    rw [State.retire_pc_toNat _ _ h]
    simp [State.wrap, State.modulus]
  counted := by simp [State.retire]
  value := by
    rw [State.getF_retire, State.getF_accrue, State.getF_setF]
    simp only [if_true]
    split
    · rfl
    · simp; omega
  others := fun r hr => by
    rw [State.getF_retire, State.getF_accrue, State.getF_setF, if_neg hr]
  flags := by simp [State.retire]
  dirty := by simp [State.retire]
  ints := fun r => by simp [State.ux, State.getX, State.retire]
  bytes := fun a => by simp [State.retire]
  beside := by
    unfold State.accrue
    split <;> rfl

/-- An integer register write, with flags, and the retirement. -/
theorem WroteXFlags.of_setX (s : State) (rd : Reg) (v : Word) (fl : FpFlags) :
    WroteXFlags s (((s.setX rd v).accrue fl).retire 4) rd v.toNat fl where
  pc := by
    rw [State.retire_pc_toNat _ _ (by norm_num)]
    simp [State.wrap, State.modulus]
  counted := by simp [State.retire]
  value := by
    rw [State.ux_retire, State.ux_accrue, State.ux_setX_self]
  others := fun r hr => by
    rw [State.ux_retire, State.ux_accrue, State.ux_setX_other _ _ _ _ hr]
  flags := by simp [State.retire]
  dirty := by
    simp [State.retire]
    split <;> rfl
  bytes := fun a => by simp [State.retire]
  beside := by
    unfold State.setX State.accrue
    split <;> split <;> rfl

theorem WroteXFlags.congr {s t : State} {rd : Reg} {v w : Int} {fl : FpFlags}
    (h : WroteXFlags s t rd v fl) (hv : s.wrap v = s.wrap w) : WroteXFlags s t rd w fl where
  pc := h.pc
  counted := h.counted
  value := by rw [← hv]; exact h.value
  others := h.others
  flags := h.flags
  dirty := h.dirty
  bytes := h.bytes
  beside := h.beside

/-- A stored number and the retirement. -/
theorem Stores.of_writeAll (s : State) (a n v len : Nat) (h : len < 2 ^ 63) :
    let t := State.retire { s with mem := s.mem.writeAll (bytesFrom a n) v } len
    StoredBytes s t a n v ∧ Retired s t (s.pc.toNat + len) ∧ (∀ r, t.ux r = s.ux r) ∧
      t.besideMem = s.besideMem := by
  refine ⟨StoredBytes.of_writeAll s a n v _ rfl, ⟨?_, rfl⟩, fun r => rfl, rfl⟩
  rw [State.retire_pc_toNat _ _ h]
  rfl

end Sys2Proof.Machine
end

