-- ==== Sys2Proof/Laws/PerInstr.lean ====
section
/-! SUPPORT. Statements about every instruction as syntax, one lemma per constructor. -/

namespace Sys2Proof.Laws.EncodeLength

open Sys2Proof

/-- The low two bits of an instruction's word are 11 exactly where it is 4 bytes long, and it is 2 or 4
bytes long (R80). A 2-byte instruction leaves the upper half of its word 0. -/
def Statement (i : Instr) : Prop :=
  ((encode i).extractLsb' 0 2 = 3#2 ∧ i.size = 4) ∨
    ((encode i).extractLsb' 0 2 ≠ 3#2 ∧ i.size = 2 ∧ (encode i).extractLsb' 16 16 = 0#16)

/-- The low two bits of a word that ends in a 7-bit opcode are the opcode's. -/
theorem low_append {n : Nat} (h : BitVec n) (op : BitVec 7) :
    (h ++ op).extractLsb' 0 2 = op.extractLsb' 0 2 := by
  ext i hi
  simp only [BitVec.getElem_extractLsb', Nat.zero_add, BitVec.getLsbD_append]
  rw [if_pos (by omega)]

/-- The low two bits of a parcel put in a word are the parcel's. -/
theorem low_parcel (h : BitVec 14) (op : BitVec 2) :
    ((h ++ op).setWidth 32).extractLsb' 0 2 = op := by
  ext i hi
  simp only [BitVec.getElem_extractLsb', Nat.zero_add, BitVec.getLsbD_setWidth, BitVec.getLsbD_append]
  rw [if_pos (by omega)]
  simp [BitVec.getLsbD_eq_getElem hi]
  omega

/-- The upper half of a parcel put in a word is 0. -/
theorem high_parcel (p : BitVec 16) : (p.setWidth 32).extractLsb' 16 16 = 0#16 := by
  ext i hi
  simp [BitVec.getElem_extractLsb', BitVec.getLsbD_setWidth]

/-- A 4-byte instruction, from its opcode. -/
theorem of_long {i : Instr} {n : Nat} {h : BitVec n} {op : BitVec 7} (size : i.size = 4)
    (e : (encode i).extractLsb' 0 2 = (h ++ op).extractLsb' 0 2) (low : op.extractLsb' 0 2 = 3#2) :
    Statement i := by
  rw [low_append] at e
  exact .inl ⟨e.trans low, size⟩

/-- A 2-byte instruction, from its parcel. -/
theorem of_short {i : Instr} {h : BitVec 14} {op : BitVec 2} (size : i.size = 2)
    (e : encode i = (h ++ op).setWidth 32) (low : op ≠ 3#2) : Statement i := by
  refine .inr ⟨?_, size, ?_⟩
  · rw [e, low_parcel]; exact low
  · rw [e, high_parcel]

theorem lui (rd : Reg) (imm : BitVec 20) : Statement (.lui rd imm) :=
  of_long rfl rfl rfl

theorem auipc (rd : Reg) (imm : BitVec 20) : Statement (.auipc rd imm) :=
  of_long rfl rfl rfl

theorem jal (rd : Reg) (imm : BitVec 20) : Statement (.jal rd imm) :=
  of_long rfl rfl rfl

theorem jalr (rd : Reg) (rs1 : Reg) (imm : BitVec 12) : Statement (.jalr rd rs1 imm) :=
  of_long rfl rfl rfl

theorem beq (rs1 : Reg) (rs2 : Reg) (imm : BitVec 12) : Statement (.beq rs1 rs2 imm) :=
  of_long rfl rfl rfl

theorem bne (rs1 : Reg) (rs2 : Reg) (imm : BitVec 12) : Statement (.bne rs1 rs2 imm) :=
  of_long rfl rfl rfl

theorem blt (rs1 : Reg) (rs2 : Reg) (imm : BitVec 12) : Statement (.blt rs1 rs2 imm) :=
  of_long rfl rfl rfl

theorem bge (rs1 : Reg) (rs2 : Reg) (imm : BitVec 12) : Statement (.bge rs1 rs2 imm) :=
  of_long rfl rfl rfl

theorem bltu (rs1 : Reg) (rs2 : Reg) (imm : BitVec 12) : Statement (.bltu rs1 rs2 imm) :=
  of_long rfl rfl rfl

theorem bgeu (rs1 : Reg) (rs2 : Reg) (imm : BitVec 12) : Statement (.bgeu rs1 rs2 imm) :=
  of_long rfl rfl rfl

theorem lb (rd : Reg) (rs1 : Reg) (imm : BitVec 12) : Statement (.lb rd rs1 imm) :=
  of_long rfl rfl rfl

theorem lh (rd : Reg) (rs1 : Reg) (imm : BitVec 12) : Statement (.lh rd rs1 imm) :=
  of_long rfl rfl rfl

theorem lw (rd : Reg) (rs1 : Reg) (imm : BitVec 12) : Statement (.lw rd rs1 imm) :=
  of_long rfl rfl rfl

theorem lbu (rd : Reg) (rs1 : Reg) (imm : BitVec 12) : Statement (.lbu rd rs1 imm) :=
  of_long rfl rfl rfl

theorem lhu (rd : Reg) (rs1 : Reg) (imm : BitVec 12) : Statement (.lhu rd rs1 imm) :=
  of_long rfl rfl rfl

theorem lwu (rd : Reg) (rs1 : Reg) (imm : BitVec 12) : Statement (.lwu rd rs1 imm) :=
  of_long rfl rfl rfl

theorem ld (rd : Reg) (rs1 : Reg) (imm : BitVec 12) : Statement (.ld rd rs1 imm) :=
  of_long rfl rfl rfl

theorem sb (rs2 : Reg) (rs1 : Reg) (imm : BitVec 12) : Statement (.sb rs2 rs1 imm) :=
  of_long rfl rfl rfl

theorem sh (rs2 : Reg) (rs1 : Reg) (imm : BitVec 12) : Statement (.sh rs2 rs1 imm) :=
  of_long rfl rfl rfl

theorem sw (rs2 : Reg) (rs1 : Reg) (imm : BitVec 12) : Statement (.sw rs2 rs1 imm) :=
  of_long rfl rfl rfl

theorem sd (rs2 : Reg) (rs1 : Reg) (imm : BitVec 12) : Statement (.sd rs2 rs1 imm) :=
  of_long rfl rfl rfl

theorem addi (rd : Reg) (rs1 : Reg) (imm : BitVec 12) : Statement (.addi rd rs1 imm) :=
  of_long rfl rfl rfl

theorem slti (rd : Reg) (rs1 : Reg) (imm : BitVec 12) : Statement (.slti rd rs1 imm) :=
  of_long rfl rfl rfl

theorem sltiu (rd : Reg) (rs1 : Reg) (imm : BitVec 12) : Statement (.sltiu rd rs1 imm) :=
  of_long rfl rfl rfl

theorem xori (rd : Reg) (rs1 : Reg) (imm : BitVec 12) : Statement (.xori rd rs1 imm) :=
  of_long rfl rfl rfl

theorem ori (rd : Reg) (rs1 : Reg) (imm : BitVec 12) : Statement (.ori rd rs1 imm) :=
  of_long rfl rfl rfl

theorem andi (rd : Reg) (rs1 : Reg) (imm : BitVec 12) : Statement (.andi rd rs1 imm) :=
  of_long rfl rfl rfl

theorem slli (rd : Reg) (rs1 : Reg) (shamt : BitVec 6) : Statement (.slli rd rs1 shamt) :=
  of_long rfl rfl rfl

theorem srli (rd : Reg) (rs1 : Reg) (shamt : BitVec 6) : Statement (.srli rd rs1 shamt) :=
  of_long rfl rfl rfl

theorem srai (rd : Reg) (rs1 : Reg) (shamt : BitVec 6) : Statement (.srai rd rs1 shamt) :=
  of_long rfl rfl rfl

theorem add (rd : Reg) (rs1 : Reg) (rs2 : Reg) : Statement (.add rd rs1 rs2) :=
  of_long rfl rfl rfl

theorem sub (rd : Reg) (rs1 : Reg) (rs2 : Reg) : Statement (.sub rd rs1 rs2) :=
  of_long rfl rfl rfl

theorem sll (rd : Reg) (rs1 : Reg) (rs2 : Reg) : Statement (.sll rd rs1 rs2) :=
  of_long rfl rfl rfl

theorem slt (rd : Reg) (rs1 : Reg) (rs2 : Reg) : Statement (.slt rd rs1 rs2) :=
  of_long rfl rfl rfl

theorem sltu (rd : Reg) (rs1 : Reg) (rs2 : Reg) : Statement (.sltu rd rs1 rs2) :=
  of_long rfl rfl rfl

theorem xor (rd : Reg) (rs1 : Reg) (rs2 : Reg) : Statement (.xor rd rs1 rs2) :=
  of_long rfl rfl rfl

theorem srl (rd : Reg) (rs1 : Reg) (rs2 : Reg) : Statement (.srl rd rs1 rs2) :=
  of_long rfl rfl rfl

theorem sra (rd : Reg) (rs1 : Reg) (rs2 : Reg) : Statement (.sra rd rs1 rs2) :=
  of_long rfl rfl rfl

theorem or (rd : Reg) (rs1 : Reg) (rs2 : Reg) : Statement (.or rd rs1 rs2) :=
  of_long rfl rfl rfl

theorem and (rd : Reg) (rs1 : Reg) (rs2 : Reg) : Statement (.and rd rs1 rs2) :=
  of_long rfl rfl rfl

theorem fence (fm : BitVec 4) (pred : BitVec 4) (succ : BitVec 4) (rs1 : Reg) (rd : Reg) : Statement (.fence fm pred succ rs1 rd) :=
  of_long rfl rfl rfl

theorem fenceI (imm : BitVec 12) (rs1 : Reg) (rd : Reg) : Statement (.fenceI imm rs1 rd) :=
  of_long rfl rfl rfl

theorem ecall : Statement .ecall := .inl ⟨rfl, rfl⟩

theorem ebreak : Statement .ebreak := .inl ⟨rfl, rfl⟩

theorem csrrw (rd : Reg) (csr : BitVec 12) (rs1 : Reg) : Statement (.csrrw rd csr rs1) :=
  of_long rfl rfl rfl

theorem csrrs (rd : Reg) (csr : BitVec 12) (rs1 : Reg) : Statement (.csrrs rd csr rs1) :=
  of_long rfl rfl rfl

theorem csrrc (rd : Reg) (csr : BitVec 12) (rs1 : Reg) : Statement (.csrrc rd csr rs1) :=
  of_long rfl rfl rfl

theorem csrrwi (rd : Reg) (csr : BitVec 12) (zimm : BitVec 5) : Statement (.csrrwi rd csr zimm) :=
  of_long rfl rfl rfl

theorem csrrsi (rd : Reg) (csr : BitVec 12) (zimm : BitVec 5) : Statement (.csrrsi rd csr zimm) :=
  of_long rfl rfl rfl

theorem csrrci (rd : Reg) (csr : BitVec 12) (zimm : BitVec 5) : Statement (.csrrci rd csr zimm) :=
  of_long rfl rfl rfl

theorem addiw (rd : Reg) (rs1 : Reg) (imm : BitVec 12) : Statement (.addiw rd rs1 imm) :=
  of_long rfl rfl rfl

theorem slliw (rd : Reg) (rs1 : Reg) (shamt : BitVec 5) : Statement (.slliw rd rs1 shamt) :=
  of_long rfl rfl rfl

theorem srliw (rd : Reg) (rs1 : Reg) (shamt : BitVec 5) : Statement (.srliw rd rs1 shamt) :=
  of_long rfl rfl rfl

theorem sraiw (rd : Reg) (rs1 : Reg) (shamt : BitVec 5) : Statement (.sraiw rd rs1 shamt) :=
  of_long rfl rfl rfl

theorem addw (rd : Reg) (rs1 : Reg) (rs2 : Reg) : Statement (.addw rd rs1 rs2) :=
  of_long rfl rfl rfl

theorem subw (rd : Reg) (rs1 : Reg) (rs2 : Reg) : Statement (.subw rd rs1 rs2) :=
  of_long rfl rfl rfl

theorem sllw (rd : Reg) (rs1 : Reg) (rs2 : Reg) : Statement (.sllw rd rs1 rs2) :=
  of_long rfl rfl rfl

theorem srlw (rd : Reg) (rs1 : Reg) (rs2 : Reg) : Statement (.srlw rd rs1 rs2) :=
  of_long rfl rfl rfl

theorem sraw (rd : Reg) (rs1 : Reg) (rs2 : Reg) : Statement (.sraw rd rs1 rs2) :=
  of_long rfl rfl rfl

theorem sret : Statement .sret := .inl ⟨rfl, rfl⟩

theorem mret : Statement .mret := .inl ⟨rfl, rfl⟩

theorem wfi : Statement .wfi := .inl ⟨rfl, rfl⟩

theorem sfenceVma (rs1 : Reg) (rs2 : Reg) : Statement (.sfenceVma rs1 rs2) :=
  of_long rfl rfl rfl

theorem mul (rd : Reg) (rs1 : Reg) (rs2 : Reg) : Statement (.mul rd rs1 rs2) :=
  of_long rfl rfl rfl

theorem mulh (rd : Reg) (rs1 : Reg) (rs2 : Reg) : Statement (.mulh rd rs1 rs2) :=
  of_long rfl rfl rfl

theorem mulhsu (rd : Reg) (rs1 : Reg) (rs2 : Reg) : Statement (.mulhsu rd rs1 rs2) :=
  of_long rfl rfl rfl

theorem mulhu (rd : Reg) (rs1 : Reg) (rs2 : Reg) : Statement (.mulhu rd rs1 rs2) :=
  of_long rfl rfl rfl

theorem div (rd : Reg) (rs1 : Reg) (rs2 : Reg) : Statement (.div rd rs1 rs2) :=
  of_long rfl rfl rfl

theorem divu (rd : Reg) (rs1 : Reg) (rs2 : Reg) : Statement (.divu rd rs1 rs2) :=
  of_long rfl rfl rfl

theorem rem (rd : Reg) (rs1 : Reg) (rs2 : Reg) : Statement (.rem rd rs1 rs2) :=
  of_long rfl rfl rfl

theorem remu (rd : Reg) (rs1 : Reg) (rs2 : Reg) : Statement (.remu rd rs1 rs2) :=
  of_long rfl rfl rfl

theorem mulw (rd : Reg) (rs1 : Reg) (rs2 : Reg) : Statement (.mulw rd rs1 rs2) :=
  of_long rfl rfl rfl

theorem divw (rd : Reg) (rs1 : Reg) (rs2 : Reg) : Statement (.divw rd rs1 rs2) :=
  of_long rfl rfl rfl

theorem divuw (rd : Reg) (rs1 : Reg) (rs2 : Reg) : Statement (.divuw rd rs1 rs2) :=
  of_long rfl rfl rfl

theorem remw (rd : Reg) (rs1 : Reg) (rs2 : Reg) : Statement (.remw rd rs1 rs2) :=
  of_long rfl rfl rfl

theorem remuw (rd : Reg) (rs1 : Reg) (rs2 : Reg) : Statement (.remuw rd rs1 rs2) :=
  of_long rfl rfl rfl

theorem lrW (rd : Reg) (rs1 : Reg) (aq : BitVec 1) (rl : BitVec 1) : Statement (.lrW rd rs1 aq rl) :=
  of_long rfl rfl rfl

theorem scW (rd : Reg) (rs2 : Reg) (rs1 : Reg) (aq : BitVec 1) (rl : BitVec 1) : Statement (.scW rd rs2 rs1 aq rl) :=
  of_long rfl rfl rfl

theorem amoswapW (rd : Reg) (rs2 : Reg) (rs1 : Reg) (aq : BitVec 1) (rl : BitVec 1) : Statement (.amoswapW rd rs2 rs1 aq rl) :=
  of_long rfl rfl rfl

theorem amoaddW (rd : Reg) (rs2 : Reg) (rs1 : Reg) (aq : BitVec 1) (rl : BitVec 1) : Statement (.amoaddW rd rs2 rs1 aq rl) :=
  of_long rfl rfl rfl

theorem amoxorW (rd : Reg) (rs2 : Reg) (rs1 : Reg) (aq : BitVec 1) (rl : BitVec 1) : Statement (.amoxorW rd rs2 rs1 aq rl) :=
  of_long rfl rfl rfl

theorem amoandW (rd : Reg) (rs2 : Reg) (rs1 : Reg) (aq : BitVec 1) (rl : BitVec 1) : Statement (.amoandW rd rs2 rs1 aq rl) :=
  of_long rfl rfl rfl

theorem amoorW (rd : Reg) (rs2 : Reg) (rs1 : Reg) (aq : BitVec 1) (rl : BitVec 1) : Statement (.amoorW rd rs2 rs1 aq rl) :=
  of_long rfl rfl rfl

theorem amominW (rd : Reg) (rs2 : Reg) (rs1 : Reg) (aq : BitVec 1) (rl : BitVec 1) : Statement (.amominW rd rs2 rs1 aq rl) :=
  of_long rfl rfl rfl

theorem amomaxW (rd : Reg) (rs2 : Reg) (rs1 : Reg) (aq : BitVec 1) (rl : BitVec 1) : Statement (.amomaxW rd rs2 rs1 aq rl) :=
  of_long rfl rfl rfl

theorem amominuW (rd : Reg) (rs2 : Reg) (rs1 : Reg) (aq : BitVec 1) (rl : BitVec 1) : Statement (.amominuW rd rs2 rs1 aq rl) :=
  of_long rfl rfl rfl

theorem amomaxuW (rd : Reg) (rs2 : Reg) (rs1 : Reg) (aq : BitVec 1) (rl : BitVec 1) : Statement (.amomaxuW rd rs2 rs1 aq rl) :=
  of_long rfl rfl rfl

theorem lrD (rd : Reg) (rs1 : Reg) (aq : BitVec 1) (rl : BitVec 1) : Statement (.lrD rd rs1 aq rl) :=
  of_long rfl rfl rfl

theorem scD (rd : Reg) (rs2 : Reg) (rs1 : Reg) (aq : BitVec 1) (rl : BitVec 1) : Statement (.scD rd rs2 rs1 aq rl) :=
  of_long rfl rfl rfl

theorem amoswapD (rd : Reg) (rs2 : Reg) (rs1 : Reg) (aq : BitVec 1) (rl : BitVec 1) : Statement (.amoswapD rd rs2 rs1 aq rl) :=
  of_long rfl rfl rfl

theorem amoaddD (rd : Reg) (rs2 : Reg) (rs1 : Reg) (aq : BitVec 1) (rl : BitVec 1) : Statement (.amoaddD rd rs2 rs1 aq rl) :=
  of_long rfl rfl rfl

theorem amoxorD (rd : Reg) (rs2 : Reg) (rs1 : Reg) (aq : BitVec 1) (rl : BitVec 1) : Statement (.amoxorD rd rs2 rs1 aq rl) :=
  of_long rfl rfl rfl

theorem amoandD (rd : Reg) (rs2 : Reg) (rs1 : Reg) (aq : BitVec 1) (rl : BitVec 1) : Statement (.amoandD rd rs2 rs1 aq rl) :=
  of_long rfl rfl rfl

theorem amoorD (rd : Reg) (rs2 : Reg) (rs1 : Reg) (aq : BitVec 1) (rl : BitVec 1) : Statement (.amoorD rd rs2 rs1 aq rl) :=
  of_long rfl rfl rfl

theorem amominD (rd : Reg) (rs2 : Reg) (rs1 : Reg) (aq : BitVec 1) (rl : BitVec 1) : Statement (.amominD rd rs2 rs1 aq rl) :=
  of_long rfl rfl rfl

theorem amomaxD (rd : Reg) (rs2 : Reg) (rs1 : Reg) (aq : BitVec 1) (rl : BitVec 1) : Statement (.amomaxD rd rs2 rs1 aq rl) :=
  of_long rfl rfl rfl

theorem amominuD (rd : Reg) (rs2 : Reg) (rs1 : Reg) (aq : BitVec 1) (rl : BitVec 1) : Statement (.amominuD rd rs2 rs1 aq rl) :=
  of_long rfl rfl rfl

theorem amomaxuD (rd : Reg) (rs2 : Reg) (rs1 : Reg) (aq : BitVec 1) (rl : BitVec 1) : Statement (.amomaxuD rd rs2 rs1 aq rl) :=
  of_long rfl rfl rfl

theorem flw (rd : Reg) (rs1 : Reg) (imm : BitVec 12) : Statement (.flw rd rs1 imm) :=
  of_long rfl rfl rfl

theorem fsw (rs2 : Reg) (rs1 : Reg) (imm : BitVec 12) : Statement (.fsw rs2 rs1 imm) :=
  of_long rfl rfl rfl

theorem fmaddS (rd : Reg) (rs1 : Reg) (rs2 : Reg) (rs3 : Reg) (rm : BitVec 3) : Statement (.fmaddS rd rs1 rs2 rs3 rm) :=
  of_long rfl rfl rfl

theorem fmsubS (rd : Reg) (rs1 : Reg) (rs2 : Reg) (rs3 : Reg) (rm : BitVec 3) : Statement (.fmsubS rd rs1 rs2 rs3 rm) :=
  of_long rfl rfl rfl

theorem fnmsubS (rd : Reg) (rs1 : Reg) (rs2 : Reg) (rs3 : Reg) (rm : BitVec 3) : Statement (.fnmsubS rd rs1 rs2 rs3 rm) :=
  of_long rfl rfl rfl

theorem fnmaddS (rd : Reg) (rs1 : Reg) (rs2 : Reg) (rs3 : Reg) (rm : BitVec 3) : Statement (.fnmaddS rd rs1 rs2 rs3 rm) :=
  of_long rfl rfl rfl

theorem faddS (rd : Reg) (rs1 : Reg) (rs2 : Reg) (rm : BitVec 3) : Statement (.faddS rd rs1 rs2 rm) :=
  of_long rfl rfl rfl

theorem fsubS (rd : Reg) (rs1 : Reg) (rs2 : Reg) (rm : BitVec 3) : Statement (.fsubS rd rs1 rs2 rm) :=
  of_long rfl rfl rfl

theorem fmulS (rd : Reg) (rs1 : Reg) (rs2 : Reg) (rm : BitVec 3) : Statement (.fmulS rd rs1 rs2 rm) :=
  of_long rfl rfl rfl

theorem fdivS (rd : Reg) (rs1 : Reg) (rs2 : Reg) (rm : BitVec 3) : Statement (.fdivS rd rs1 rs2 rm) :=
  of_long rfl rfl rfl

theorem fsqrtS (rd : Reg) (rs1 : Reg) (rm : BitVec 3) : Statement (.fsqrtS rd rs1 rm) :=
  of_long rfl rfl rfl

theorem fsgnjS (rd : Reg) (rs1 : Reg) (rs2 : Reg) : Statement (.fsgnjS rd rs1 rs2) :=
  of_long rfl rfl rfl

theorem fsgnjnS (rd : Reg) (rs1 : Reg) (rs2 : Reg) : Statement (.fsgnjnS rd rs1 rs2) :=
  of_long rfl rfl rfl

theorem fsgnjxS (rd : Reg) (rs1 : Reg) (rs2 : Reg) : Statement (.fsgnjxS rd rs1 rs2) :=
  of_long rfl rfl rfl

theorem fminS (rd : Reg) (rs1 : Reg) (rs2 : Reg) : Statement (.fminS rd rs1 rs2) :=
  of_long rfl rfl rfl

theorem fmaxS (rd : Reg) (rs1 : Reg) (rs2 : Reg) : Statement (.fmaxS rd rs1 rs2) :=
  of_long rfl rfl rfl

theorem fcvtWS (rd : Reg) (rs1 : Reg) (rm : BitVec 3) : Statement (.fcvtWS rd rs1 rm) :=
  of_long rfl rfl rfl

theorem fcvtWuS (rd : Reg) (rs1 : Reg) (rm : BitVec 3) : Statement (.fcvtWuS rd rs1 rm) :=
  of_long rfl rfl rfl

theorem fcvtLS (rd : Reg) (rs1 : Reg) (rm : BitVec 3) : Statement (.fcvtLS rd rs1 rm) :=
  of_long rfl rfl rfl

theorem fcvtLuS (rd : Reg) (rs1 : Reg) (rm : BitVec 3) : Statement (.fcvtLuS rd rs1 rm) :=
  of_long rfl rfl rfl

theorem feqS (rd : Reg) (rs1 : Reg) (rs2 : Reg) : Statement (.feqS rd rs1 rs2) :=
  of_long rfl rfl rfl

theorem fltS (rd : Reg) (rs1 : Reg) (rs2 : Reg) : Statement (.fltS rd rs1 rs2) :=
  of_long rfl rfl rfl

theorem fleS (rd : Reg) (rs1 : Reg) (rs2 : Reg) : Statement (.fleS rd rs1 rs2) :=
  of_long rfl rfl rfl

theorem fclassS (rd : Reg) (rs1 : Reg) : Statement (.fclassS rd rs1) :=
  of_long rfl rfl rfl

theorem fcvtSW (rd : Reg) (rs1 : Reg) (rm : BitVec 3) : Statement (.fcvtSW rd rs1 rm) :=
  of_long rfl rfl rfl

theorem fcvtSWu (rd : Reg) (rs1 : Reg) (rm : BitVec 3) : Statement (.fcvtSWu rd rs1 rm) :=
  of_long rfl rfl rfl

theorem fcvtSL (rd : Reg) (rs1 : Reg) (rm : BitVec 3) : Statement (.fcvtSL rd rs1 rm) :=
  of_long rfl rfl rfl

theorem fcvtSLu (rd : Reg) (rs1 : Reg) (rm : BitVec 3) : Statement (.fcvtSLu rd rs1 rm) :=
  of_long rfl rfl rfl

theorem fld (rd : Reg) (rs1 : Reg) (imm : BitVec 12) : Statement (.fld rd rs1 imm) :=
  of_long rfl rfl rfl

theorem fsd (rs2 : Reg) (rs1 : Reg) (imm : BitVec 12) : Statement (.fsd rs2 rs1 imm) :=
  of_long rfl rfl rfl

theorem fmaddD (rd : Reg) (rs1 : Reg) (rs2 : Reg) (rs3 : Reg) (rm : BitVec 3) : Statement (.fmaddD rd rs1 rs2 rs3 rm) :=
  of_long rfl rfl rfl

theorem fmsubD (rd : Reg) (rs1 : Reg) (rs2 : Reg) (rs3 : Reg) (rm : BitVec 3) : Statement (.fmsubD rd rs1 rs2 rs3 rm) :=
  of_long rfl rfl rfl

theorem fnmsubD (rd : Reg) (rs1 : Reg) (rs2 : Reg) (rs3 : Reg) (rm : BitVec 3) : Statement (.fnmsubD rd rs1 rs2 rs3 rm) :=
  of_long rfl rfl rfl

theorem fnmaddD (rd : Reg) (rs1 : Reg) (rs2 : Reg) (rs3 : Reg) (rm : BitVec 3) : Statement (.fnmaddD rd rs1 rs2 rs3 rm) :=
  of_long rfl rfl rfl

theorem faddD (rd : Reg) (rs1 : Reg) (rs2 : Reg) (rm : BitVec 3) : Statement (.faddD rd rs1 rs2 rm) :=
  of_long rfl rfl rfl

theorem fsubD (rd : Reg) (rs1 : Reg) (rs2 : Reg) (rm : BitVec 3) : Statement (.fsubD rd rs1 rs2 rm) :=
  of_long rfl rfl rfl

theorem fmulD (rd : Reg) (rs1 : Reg) (rs2 : Reg) (rm : BitVec 3) : Statement (.fmulD rd rs1 rs2 rm) :=
  of_long rfl rfl rfl

theorem fdivD (rd : Reg) (rs1 : Reg) (rs2 : Reg) (rm : BitVec 3) : Statement (.fdivD rd rs1 rs2 rm) :=
  of_long rfl rfl rfl

theorem fsqrtD (rd : Reg) (rs1 : Reg) (rm : BitVec 3) : Statement (.fsqrtD rd rs1 rm) :=
  of_long rfl rfl rfl

theorem fsgnjD (rd : Reg) (rs1 : Reg) (rs2 : Reg) : Statement (.fsgnjD rd rs1 rs2) :=
  of_long rfl rfl rfl

theorem fsgnjnD (rd : Reg) (rs1 : Reg) (rs2 : Reg) : Statement (.fsgnjnD rd rs1 rs2) :=
  of_long rfl rfl rfl

theorem fsgnjxD (rd : Reg) (rs1 : Reg) (rs2 : Reg) : Statement (.fsgnjxD rd rs1 rs2) :=
  of_long rfl rfl rfl

theorem fminD (rd : Reg) (rs1 : Reg) (rs2 : Reg) : Statement (.fminD rd rs1 rs2) :=
  of_long rfl rfl rfl

theorem fmaxD (rd : Reg) (rs1 : Reg) (rs2 : Reg) : Statement (.fmaxD rd rs1 rs2) :=
  of_long rfl rfl rfl

theorem fcvtWD (rd : Reg) (rs1 : Reg) (rm : BitVec 3) : Statement (.fcvtWD rd rs1 rm) :=
  of_long rfl rfl rfl

theorem fcvtWuD (rd : Reg) (rs1 : Reg) (rm : BitVec 3) : Statement (.fcvtWuD rd rs1 rm) :=
  of_long rfl rfl rfl

theorem fcvtLD (rd : Reg) (rs1 : Reg) (rm : BitVec 3) : Statement (.fcvtLD rd rs1 rm) :=
  of_long rfl rfl rfl

theorem fcvtLuD (rd : Reg) (rs1 : Reg) (rm : BitVec 3) : Statement (.fcvtLuD rd rs1 rm) :=
  of_long rfl rfl rfl

theorem feqD (rd : Reg) (rs1 : Reg) (rs2 : Reg) : Statement (.feqD rd rs1 rs2) :=
  of_long rfl rfl rfl

theorem fltD (rd : Reg) (rs1 : Reg) (rs2 : Reg) : Statement (.fltD rd rs1 rs2) :=
  of_long rfl rfl rfl

theorem fleD (rd : Reg) (rs1 : Reg) (rs2 : Reg) : Statement (.fleD rd rs1 rs2) :=
  of_long rfl rfl rfl

theorem fclassD (rd : Reg) (rs1 : Reg) : Statement (.fclassD rd rs1) :=
  of_long rfl rfl rfl

theorem fcvtDW (rd : Reg) (rs1 : Reg) (rm : BitVec 3) : Statement (.fcvtDW rd rs1 rm) :=
  of_long rfl rfl rfl

theorem fcvtDWu (rd : Reg) (rs1 : Reg) (rm : BitVec 3) : Statement (.fcvtDWu rd rs1 rm) :=
  of_long rfl rfl rfl

theorem fcvtDL (rd : Reg) (rs1 : Reg) (rm : BitVec 3) : Statement (.fcvtDL rd rs1 rm) :=
  of_long rfl rfl rfl

theorem fcvtDLu (rd : Reg) (rs1 : Reg) (rm : BitVec 3) : Statement (.fcvtDLu rd rs1 rm) :=
  of_long rfl rfl rfl

theorem fmvXW (rd : Reg) (rs1 : Reg) : Statement (.fmvXW rd rs1) :=
  of_long rfl rfl rfl

theorem fmvWX (rd : Reg) (rs1 : Reg) : Statement (.fmvWX rd rs1) :=
  of_long rfl rfl rfl

theorem fmvXD (rd : Reg) (rs1 : Reg) : Statement (.fmvXD rd rs1) :=
  of_long rfl rfl rfl

theorem fmvDX (rd : Reg) (rs1 : Reg) : Statement (.fmvDX rd rs1) :=
  of_long rfl rfl rfl

theorem fcvtSD (rd : Reg) (rs1 : Reg) (rm : BitVec 3) : Statement (.fcvtSD rd rs1 rm) :=
  of_long rfl rfl rfl

theorem fcvtDS (rd : Reg) (rs1 : Reg) (rm : BitVec 3) : Statement (.fcvtDS rd rs1 rm) :=
  of_long rfl rfl rfl

theorem cAddi4spn (rd : CReg) (imm : BitVec 8) : Statement (.cAddi4spn rd imm) :=
  of_short rfl rfl (by decide)

theorem cFld (rd : CReg) (rs1 : CReg) (imm : BitVec 5) : Statement (.cFld rd rs1 imm) :=
  of_short rfl rfl (by decide)

theorem cLw (rd : CReg) (rs1 : CReg) (imm : BitVec 5) : Statement (.cLw rd rs1 imm) :=
  of_short rfl rfl (by decide)

theorem cFlw (rd : CReg) (rs1 : CReg) (imm : BitVec 5) : Statement (.cFlw rd rs1 imm) :=
  of_short rfl rfl (by decide)

theorem cLd (rd : CReg) (rs1 : CReg) (imm : BitVec 5) : Statement (.cLd rd rs1 imm) :=
  of_short rfl rfl (by decide)

theorem cFsd (rs2 : CReg) (rs1 : CReg) (imm : BitVec 5) : Statement (.cFsd rs2 rs1 imm) :=
  of_short rfl rfl (by decide)

theorem cSw (rs2 : CReg) (rs1 : CReg) (imm : BitVec 5) : Statement (.cSw rs2 rs1 imm) :=
  of_short rfl rfl (by decide)

theorem cFsw (rs2 : CReg) (rs1 : CReg) (imm : BitVec 5) : Statement (.cFsw rs2 rs1 imm) :=
  of_short rfl rfl (by decide)

theorem cSd (rs2 : CReg) (rs1 : CReg) (imm : BitVec 5) : Statement (.cSd rs2 rs1 imm) :=
  of_short rfl rfl (by decide)

theorem cAddi (rd : Reg) (imm : BitVec 6) : Statement (.cAddi rd imm) :=
  of_short rfl rfl (by decide)

theorem cJal (imm : BitVec 11) : Statement (.cJal imm) :=
  of_short rfl rfl (by decide)

theorem cAddiw (rd : Reg) (imm : BitVec 6) : Statement (.cAddiw rd imm) :=
  of_short rfl rfl (by decide)

theorem cLi (rd : Reg) (imm : BitVec 6) : Statement (.cLi rd imm) :=
  of_short rfl rfl (by decide)

theorem cAddi16sp (imm : BitVec 6) : Statement (.cAddi16sp imm) :=
  of_short rfl rfl (by decide)

theorem cLui (rd : Reg) (imm : BitVec 6) : Statement (.cLui rd imm) :=
  of_short rfl rfl (by decide)

theorem cSrli (rd : CReg) (shamt : BitVec 6) : Statement (.cSrli rd shamt) :=
  of_short rfl rfl (by decide)

theorem cSrai (rd : CReg) (shamt : BitVec 6) : Statement (.cSrai rd shamt) :=
  of_short rfl rfl (by decide)

theorem cAndi (rd : CReg) (imm : BitVec 6) : Statement (.cAndi rd imm) :=
  of_short rfl rfl (by decide)

theorem cSub (rd : CReg) (rs2 : CReg) : Statement (.cSub rd rs2) :=
  of_short rfl rfl (by decide)

theorem cXor (rd : CReg) (rs2 : CReg) : Statement (.cXor rd rs2) :=
  of_short rfl rfl (by decide)

theorem cOr (rd : CReg) (rs2 : CReg) : Statement (.cOr rd rs2) :=
  of_short rfl rfl (by decide)

theorem cAnd (rd : CReg) (rs2 : CReg) : Statement (.cAnd rd rs2) :=
  of_short rfl rfl (by decide)

theorem cSubw (rd : CReg) (rs2 : CReg) : Statement (.cSubw rd rs2) :=
  of_short rfl rfl (by decide)

theorem cAddw (rd : CReg) (rs2 : CReg) : Statement (.cAddw rd rs2) :=
  of_short rfl rfl (by decide)

theorem cJ (imm : BitVec 11) : Statement (.cJ imm) :=
  of_short rfl rfl (by decide)

theorem cBeqz (rs1 : CReg) (imm : BitVec 8) : Statement (.cBeqz rs1 imm) :=
  of_short rfl rfl (by decide)

theorem cBnez (rs1 : CReg) (imm : BitVec 8) : Statement (.cBnez rs1 imm) :=
  of_short rfl rfl (by decide)

theorem cSlli (rd : Reg) (shamt : BitVec 6) : Statement (.cSlli rd shamt) :=
  of_short rfl rfl (by decide)

theorem cFldsp (rd : Reg) (imm : BitVec 6) : Statement (.cFldsp rd imm) :=
  of_short rfl rfl (by decide)

theorem cLwsp (rd : Reg) (imm : BitVec 6) : Statement (.cLwsp rd imm) :=
  of_short rfl rfl (by decide)

theorem cFlwsp (rd : Reg) (imm : BitVec 6) : Statement (.cFlwsp rd imm) :=
  of_short rfl rfl (by decide)

theorem cLdsp (rd : Reg) (imm : BitVec 6) : Statement (.cLdsp rd imm) :=
  of_short rfl rfl (by decide)

theorem cJr (rs1 : Reg) : Statement (.cJr rs1) :=
  of_short rfl rfl (by decide)

theorem cMv (rd : Reg) (rs2 : Reg) : Statement (.cMv rd rs2) :=
  of_short rfl rfl (by decide)

theorem cEbreak : Statement .cEbreak :=
  of_short rfl rfl (by decide)

theorem cJalr (rs1 : Reg) : Statement (.cJalr rs1) :=
  of_short rfl rfl (by decide)

theorem cAdd (rd : Reg) (rs2 : Reg) : Statement (.cAdd rd rs2) :=
  of_short rfl rfl (by decide)

theorem cFsdsp (rs2 : Reg) (imm : BitVec 6) : Statement (.cFsdsp rs2 imm) :=
  of_short rfl rfl (by decide)

theorem cSwsp (rs2 : Reg) (imm : BitVec 6) : Statement (.cSwsp rs2 imm) :=
  of_short rfl rfl (by decide)

theorem cFswsp (rs2 : Reg) (imm : BitVec 6) : Statement (.cFswsp rs2 imm) :=
  of_short rfl rfl (by decide)

theorem cSdsp (rs2 : Reg) (imm : BitVec 6) : Statement (.cSdsp rs2 imm) :=
  of_short rfl rfl (by decide)

end Sys2Proof.Laws.EncodeLength
end

