-- ==== Sys2Proof/Laws/Step.lean ====
section
/-! SUPPORT. What one step can do. -/

namespace Sys2Proof.Machine

open Sys2Proof

/-- The five ways a step gives a next state (R392): an interrupt, a failed fetch, a word that encodes no
instruction, and the instruction's own outcome. -/
theorem step_eq_next (s t : State) (h : step s = .next t) :
    (∃ n, s.beginStep.pendingInterrupt = some n ∧ t = s.beginStep.takeInterrupt n) ∨
    (s.beginStep.pendingInterrupt = none ∧
      ((∃ e tval, s.beginStep.fetch = .raise e tval ∧ t = s.beginStep.takeException e tval) ∨
       ∃ u w, s.beginStep.fetch = .ok (u, w) ∧
        ((∃ i, decode u.cfg w = .instr i ∧ exec i u = .next t) ∨
         ((∀ i, decode u.cfg w ≠ .instr i) ∧
           t = u.takeException .illegalInstruction (u.illegalTval w))))) := by
  unfold step State.runNext at h
  split at h
  · rename_i n hn
    cases h
    exact .inl ⟨n, hn, rfl⟩
  · rename_i hn
    refine .inr ⟨hn, ?_⟩
    split at h
    · rename_i u w hf
      refine .inr ⟨u, w, hf, ?_⟩
      unfold State.runWord at h
      split at h
      · rename_i i hi
        exact .inl ⟨i, hi, h⟩
      · rename_i hi
        cases h
        exact .inr ⟨fun i h' => hi i h', rfl⟩
    · rename_i e tval hf
      cases h
      exact .inl ⟨e, tval, hf, rfl⟩
    · cases h

/-- A decoded instruction exists in the configuration with its operands (R83 step 2). -/
theorem decode_eq_instr (c : Config) (w : BitVec 32) (i : Instr) (h : decode c w = .instr i) :
    i.existsIn c = true ∧ i.operandsOk c = true := by
  unfold decode checkDecoded at h
  dsimp only at h
  split at h
  · cases h
  · split at h
    · split at h
      · rename_i h1 h2
        cases h
        exact ⟨h1, h2⟩
      · cases h
    · cases h

end Sys2Proof.Machine
end

