-- ==== Sys2Proof/Tests/Slice0.lean ====
section
/-! SUPPORT. The model's own tests: the refusals of the well-formedness checks, the decoding of words laid out
from spec/30_encoding.md, single steps from the vectors of spec/95_test_vectors.md and
spec/96_test_vectors_2.md, and, for each obligation with hypotheses, a state that meets them. -/

namespace Sys2Proof.Tests

set_option Elab.async false

open Sys2Proof Sys2Proof.Machine

/-! ## Configurations -/

/-- RV32 with everything else as in the default configuration. -/
def cfg32 : Config := { Config.default with xlen := .rv32 }

/-- The base instructions alone, in M-mode alone. -/
def cfgBare : Config :=
  { Config.default with
    extM := false, extA := false, extF := false, extD := false, extC := false, modes := .m }

/-- Double precision switched off. -/
def cfgNoD : Config := { Config.default with extD := false }

/-- Without the compressed instructions: IALIGN is 32. -/
def cfgNoC : Config := { Config.default with extC := false }

/-- Main memory, a read-only non-atomic region and an `io` region; nothing above. -/
def cfgMap : Config :=
  { Config.default with
    memMap :=
      [{ base := 0, size := 0x4000, readable := true, writable := true, executable := true,
         atomic := true, io := false },
       { base := 0x4000, size := 0x1000, readable := true, writable := false, executable := false,
         atomic := false, io := false },
       { base := 0x5000, size := 0x1000, readable := true, writable := true, executable := true,
         atomic := true, io := true }] }

theorem test_configurations_valid :
    [Config.default, cfg32, cfgBare, cfgNoD, cfgNoC, cfgMap].all Config.valid = true := by decide

/-! ## Well-formedness: an ill-formed term for each check -/

theorem test_wf_needs_m : (Instr.mul 1 2 3).wellFormed cfgBare = false := by decide
theorem test_wf_needs_a : (Instr.lrW 1 2 0 0).wellFormed cfgBare = false := by decide
theorem test_wf_needs_f : (Instr.faddS 1 2 3 0).wellFormed cfgBare = false := by decide
theorem test_wf_needs_d : (Instr.faddD 1 2 3 0).wellFormed cfgNoD = false := by decide
theorem test_wf_needs_c : (Instr.cMv 1 2).wellFormed cfgNoC = false := by decide
theorem test_wf_needs_c_and_f : (Instr.cFlw 1 2 3).wellFormed { cfg32 with extF := false, extD := false } = false := by
  decide
theorem test_wf_needs_c_and_d : (Instr.cFld 1 2 3).wellFormed cfgNoD = false := by decide
theorem test_wf_needs_s : (Instr.sret).wellFormed cfgBare = false := by decide
theorem test_wf_rv64_only : (Instr.ld 1 2 3).wellFormed cfg32 = false := by decide
theorem test_wf_rv32_only : (Instr.cJal 4).wellFormed Config.default = false := by decide
theorem test_wf_shift_amount : (Instr.slli 1 2 32).wellFormed cfg32 = false ∧
    (Instr.slli 1 2 32).wellFormed Config.default = true ∧
    (Instr.srli 1 2 63).wellFormed cfg32 = false ∧ (Instr.srai 1 2 32).wellFormed cfg32 = false := by
  decide
theorem test_wf_compressed_shift_amount : (Instr.cSlli 1 32).wellFormed cfg32 = false ∧
    (Instr.cSrli 1 32).wellFormed cfg32 = false ∧ (Instr.cSrai 1 32).wellFormed cfg32 = false ∧
    (Instr.cSrai 1 31).wellFormed cfg32 = true := by decide
theorem test_wf_addi4spn_zero : (Instr.cAddi4spn 1 0).wellFormed Config.default = false := by decide
theorem test_wf_addiw_x0 : (Instr.cAddiw 0 1).wellFormed Config.default = false := by decide
theorem test_wf_addi16sp_zero : (Instr.cAddi16sp 0).wellFormed Config.default = false := by decide
theorem test_wf_lui_sp : (Instr.cLui 2 1).wellFormed Config.default = false := by decide
theorem test_wf_lui_zero : (Instr.cLui 5 0).wellFormed Config.default = false := by decide
theorem test_wf_lwsp_x0 : (Instr.cLwsp 0 1).wellFormed Config.default = false := by decide
theorem test_wf_ldsp_x0 : (Instr.cLdsp 0 1).wellFormed Config.default = false := by decide
theorem test_wf_jr_x0 : (Instr.cJr 0).wellFormed Config.default = false := by decide
theorem test_wf_jalr_x0 : (Instr.cJalr 0).wellFormed Config.default = false := by decide
theorem test_wf_mv_x0 : (Instr.cMv 5 0).wellFormed Config.default = false := by decide
theorem test_wf_add_x0 : (Instr.cAdd 5 0).wellFormed Config.default = false ∧
    (Instr.cAdd 0 5).wellFormed Config.default = false ∧
    (Instr.cAdd 0 5).wellFormed { Config.default with cAddRd0 := .nop } = true := by decide

/-! ## Decoding: every constructor, by a word laid out from its row of R105 or R106

Operands: rd 7 (rd' 7), rs1 5, rs2 6, rs3 28, rm 1, aq 1, rl 0, CSR 0x341, zimm 21, shamt 13, fm 8, pred 2, succ 3;
immediates with no two fields alike. Each word was assembled from the bit positions of the row's fields. -/

/-- Each word decodes to its instruction, and the instruction's own word is that word. -/
def decodesTo (c : Config) (l : List (BitVec 32 × Instr)) : Bool :=
  l.all fun p => decode c p.1 == .instr p.2 && encode p.2 == p.1

theorem test_decode_base_1 : decodesTo Config.default
   [(0xA5C313B7, .lui 7 678961), (0xA5C31397, .auipc 7 678961), (0x8634B3EF, .jal 7 678961),
    (0xACD283E7, .jalr 7 5 2765), (0xD8628D63, .beq 5 6 2765), (0xD8629D63, .bne 5 6 2765),
    (0xD862CD63, .blt 5 6 2765), (0xD862DD63, .bge 5 6 2765), (0xD862ED63, .bltu 5 6 2765),
    (0xD862FD63, .bgeu 5 6 2765), (0xACD28383, .lb 7 5 2765), (0xACD29383, .lh 7 5 2765),
    (0xACD2A383, .lw 7 5 2765), (0xACD2C383, .lbu 7 5 2765), (0xACD2D383, .lhu 7 5 2765),
    (0xACD2E383, .lwu 7 5 2765), (0xACD2B383, .ld 7 5 2765), (0xAC6286A3, .sb 6 5 2765),
    (0xAC6296A3, .sh 6 5 2765), (0xAC62A6A3, .sw 6 5 2765)] = true := by
  decide +kernel

theorem test_decode_base_2 : decodesTo Config.default
   [(0xAC62B6A3, .sd 6 5 2765), (0xACD28393, .addi 7 5 2765), (0xACD2A393, .slti 7 5 2765),
    (0xACD2B393, .sltiu 7 5 2765), (0xACD2C393, .xori 7 5 2765), (0xACD2E393, .ori 7 5 2765),
    (0xACD2F393, .andi 7 5 2765), (0x02D29393, .slli 7 5 45), (0x02D2D393, .srli 7 5 45),
    (0x42D2D393, .srai 7 5 45), (0x006283B3, .add 7 5 6), (0x406283B3, .sub 7 5 6),
    (0x006293B3, .sll 7 5 6), (0x0062A3B3, .slt 7 5 6), (0x0062B3B3, .sltu 7 5 6),
    (0x0062C3B3, .xor 7 5 6), (0x0062D3B3, .srl 7 5 6), (0x4062D3B3, .sra 7 5 6), (0x0062E3B3, .or 7 5 6),
    (0x0062F3B3, .and 7 5 6)] = true := by
  decide +kernel

theorem test_decode_base_3 : decodesTo Config.default
   [(0x8232838F, .fence 8 2 3 5 7), (0xACD2938F, .fenceI 2765 5 7), (0x00000073, .ecall),
    (0x00100073, .ebreak), (0x341293F3, .csrrw 7 833 5), (0x3412A3F3, .csrrs 7 833 5),
    (0x3412B3F3, .csrrc 7 833 5), (0x3419D3F3, .csrrwi 7 833 19), (0x3419E3F3, .csrrsi 7 833 19),
    (0x3419F3F3, .csrrci 7 833 19), (0xACD2839B, .addiw 7 5 2765), (0x0132939B, .slliw 7 5 19),
    (0x0132D39B, .srliw 7 5 19), (0x4132D39B, .sraiw 7 5 19), (0x006283BB, .addw 7 5 6),
    (0x406283BB, .subw 7 5 6), (0x006293BB, .sllw 7 5 6), (0x0062D3BB, .srlw 7 5 6),
    (0x4062D3BB, .sraw 7 5 6)] = true := by
  decide +kernel

theorem test_decode_privileged : decodesTo Config.default
   [(0x10200073, .sret), (0x30200073, .mret), (0x10500073, .wfi), (0x12628073, .sfenceVma 5 6)] = true := by
  decide +kernel

theorem test_decode_mul_div : decodesTo Config.default
   [(0x026283B3, .mul 7 5 6), (0x026293B3, .mulh 7 5 6), (0x0262A3B3, .mulhsu 7 5 6),
    (0x0262B3B3, .mulhu 7 5 6), (0x0262C3B3, .div 7 5 6), (0x0262D3B3, .divu 7 5 6),
    (0x0262E3B3, .rem 7 5 6), (0x0262F3B3, .remu 7 5 6), (0x026283BB, .mulw 7 5 6),
    (0x0262C3BB, .divw 7 5 6), (0x0262D3BB, .divuw 7 5 6), (0x0262E3BB, .remw 7 5 6),
    (0x0262F3BB, .remuw 7 5 6)] = true := by
  decide +kernel

theorem test_decode_atomic_1 : decodesTo Config.default
   [(0x1402A3AF, .lrW 7 5 1 0), (0x1C62A3AF, .scW 7 6 5 1 0), (0x0C62A3AF, .amoswapW 7 6 5 1 0),
    (0x0462A3AF, .amoaddW 7 6 5 1 0), (0x2462A3AF, .amoxorW 7 6 5 1 0), (0x6462A3AF, .amoandW 7 6 5 1 0),
    (0x4462A3AF, .amoorW 7 6 5 1 0), (0x8462A3AF, .amominW 7 6 5 1 0), (0xA462A3AF, .amomaxW 7 6 5 1 0),
    (0xC462A3AF, .amominuW 7 6 5 1 0), (0xE462A3AF, .amomaxuW 7 6 5 1 0), (0x1402B3AF, .lrD 7 5 1 0),
    (0x1C62B3AF, .scD 7 6 5 1 0), (0x0C62B3AF, .amoswapD 7 6 5 1 0), (0x0462B3AF, .amoaddD 7 6 5 1 0),
    (0x2462B3AF, .amoxorD 7 6 5 1 0), (0x6462B3AF, .amoandD 7 6 5 1 0), (0x4462B3AF, .amoorD 7 6 5 1 0),
    (0x8462B3AF, .amominD 7 6 5 1 0), (0xA462B3AF, .amomaxD 7 6 5 1 0)] = true := by
  decide +kernel

theorem test_decode_atomic_2 : decodesTo Config.default
   [(0xC462B3AF, .amominuD 7 6 5 1 0), (0xE462B3AF, .amomaxuD 7 6 5 1 0)] = true := by
  decide +kernel

theorem test_decode_single_1 : decodesTo Config.default
   [(0xACD2A387, .flw 7 5 2765), (0xAC62A6A7, .fsw 6 5 2765), (0xE06293C3, .fmaddS 7 5 6 28 1),
    (0xE06293C7, .fmsubS 7 5 6 28 1), (0xE06293CB, .fnmsubS 7 5 6 28 1), (0xE06293CF, .fnmaddS 7 5 6 28 1),
    (0x006293D3, .faddS 7 5 6 1), (0x086293D3, .fsubS 7 5 6 1), (0x106293D3, .fmulS 7 5 6 1),
    (0x186293D3, .fdivS 7 5 6 1), (0x580293D3, .fsqrtS 7 5 1), (0x206283D3, .fsgnjS 7 5 6),
    (0x206293D3, .fsgnjnS 7 5 6), (0x2062A3D3, .fsgnjxS 7 5 6), (0x286283D3, .fminS 7 5 6),
    (0x286293D3, .fmaxS 7 5 6), (0xC00293D3, .fcvtWS 7 5 1), (0xC01293D3, .fcvtWuS 7 5 1),
    (0xC02293D3, .fcvtLS 7 5 1), (0xC03293D3, .fcvtLuS 7 5 1)] = true := by
  decide +kernel

theorem test_decode_single_2 : decodesTo Config.default
   [(0xA062A3D3, .feqS 7 5 6), (0xA06293D3, .fltS 7 5 6), (0xA06283D3, .fleS 7 5 6),
    (0xE00293D3, .fclassS 7 5), (0xD00293D3, .fcvtSW 7 5 1), (0xD01293D3, .fcvtSWu 7 5 1),
    (0xD02293D3, .fcvtSL 7 5 1), (0xD03293D3, .fcvtSLu 7 5 1), (0xE00283D3, .fmvXW 7 5),
    (0xF00283D3, .fmvWX 7 5)] = true := by
  decide +kernel

theorem test_decode_double_1 : decodesTo Config.default
   [(0xACD2B387, .fld 7 5 2765), (0xAC62B6A7, .fsd 6 5 2765), (0xE26293C3, .fmaddD 7 5 6 28 1),
    (0xE26293C7, .fmsubD 7 5 6 28 1), (0xE26293CB, .fnmsubD 7 5 6 28 1), (0xE26293CF, .fnmaddD 7 5 6 28 1),
    (0x026293D3, .faddD 7 5 6 1), (0x0A6293D3, .fsubD 7 5 6 1), (0x126293D3, .fmulD 7 5 6 1),
    (0x1A6293D3, .fdivD 7 5 6 1), (0x5A0293D3, .fsqrtD 7 5 1), (0x226283D3, .fsgnjD 7 5 6),
    (0x226293D3, .fsgnjnD 7 5 6), (0x2262A3D3, .fsgnjxD 7 5 6), (0x2A6283D3, .fminD 7 5 6),
    (0x2A6293D3, .fmaxD 7 5 6), (0xC20293D3, .fcvtWD 7 5 1), (0xC21293D3, .fcvtWuD 7 5 1),
    (0xC22293D3, .fcvtLD 7 5 1), (0xC23293D3, .fcvtLuD 7 5 1)] = true := by
  decide +kernel

theorem test_decode_double_2 : decodesTo Config.default
   [(0xA262A3D3, .feqD 7 5 6), (0xA26293D3, .fltD 7 5 6), (0xA26283D3, .fleD 7 5 6),
    (0xE20293D3, .fclassD 7 5), (0xD20293D3, .fcvtDW 7 5 1), (0xD21293D3, .fcvtDWu 7 5 1),
    (0xD22293D3, .fcvtDL 7 5 1), (0xD23293D3, .fcvtDLu 7 5 1), (0xE20283D3, .fmvXD 7 5),
    (0xF20283D3, .fmvDX 7 5), (0x401293D3, .fcvtSD 7 5 1), (0x420293D3, .fcvtDS 7 5 1)] = true := by
  decide +kernel

theorem test_decode_compressed_1 : decodesTo Config.default
   [(0x000005BC, .cAddi4spn 7 178), (0x00002EDC, .cFld 7 5 19), (0x000046FC, .cLw 7 5 19),
    (0x0000AED8, .cFsd 6 5 19), (0x0000C6F8, .cSw 6 5 19), (0x000013B5, .cAddi 7 45),
    (0x000053B5, .cLi 7 45), (0x00007169, .cAddi16sp 45), (0x000073B5, .cLui 7 45),
    (0x000093B5, .cSrli 7 45), (0x000097B5, .cSrai 7 45), (0x00009BB5, .cAndi 7 45),
    (0x00008F99, .cSub 7 6), (0x00008FB9, .cXor 7 6), (0x00008FD9, .cOr 7 6), (0x00008FF9, .cAnd 7 6),
    (0x0000B275, .cJ 1238), (0x0000D2B5, .cBeqz 5 178), (0x0000F2B5, .cBnez 5 178),
    (0x000013B6, .cSlli 7 45)] = true := by
  decide +kernel

theorem test_decode_compressed_2 : decodesTo Config.default
   [(0x000033B6, .cFldsp 7 45), (0x000053DA, .cLwsp 7 45), (0x00008282, .cJr 5), (0x0000839A, .cMv 7 6),
    (0x00009002, .cEbreak), (0x00009282, .cJalr 5), (0x0000939A, .cAdd 7 6), (0x0000B69A, .cFsdsp 6 45),
    (0x0000DB1A, .cSwsp 6 45)] = true := by
  decide +kernel

theorem test_decode_compressed_rv32 : decodesTo cfg32
   [(0x000066FC, .cFlw 7 5 19), (0x0000E6F8, .cFsw 6 5 19), (0x00003275, .cJal 1238),
    (0x000073DA, .cFlwsp 7 45), (0x0000FB1A, .cFswsp 6 45)] = true := by
  decide +kernel

theorem test_decode_compressed_rv64 : decodesTo Config.default
   [(0x00006EDC, .cLd 7 5 19), (0x0000EED8, .cSd 6 5 19), (0x000033B5, .cAddiw 7 45),
    (0x00009F99, .cSubw 7 6), (0x00009FB9, .cAddw 7 6), (0x000073B6, .cLdsp 7 45),
    (0x0000F69A, .cSdsp 6 45)] = true := by
  decide +kernel

/-- Illegal words (spec/96_test_vectors_2.md 2.9): all zeros, all ones, an unlisted funct7, a jalr with funct3 = 1,
an RV64 shift amount on RV32, `c.addi4spn` with 0, `c.jr` with x0. -/
theorem test_illegal_words :
    [0x00000000, 0xFFFFFFFF, 0x046283B3, 0x000290E7, 0x00008002].all (fun w =>
      (decode Config.default w).toOption == none) = true ∧
    (decode cfg32 0x02029313).toOption = none := by decide +kernel

/-- The decoder takes two bytes or four from the front of a list, and none where there are too few (R80). -/
theorem test_decode_bytes :
    (decodeBytes Config.default [0xFD, 0x12, 0xAA]).map (fun r => (r.1.toOption, r.2)) =
      some (some (.cAddi 5 (-1)), [0xAA]) ∧
    (decodeBytes Config.default [0xB3, 0x83, 0x62, 0x00]).map (fun r => (r.1.toOption, r.2)) =
      some (some (.add 7 5 6), []) ∧
    decodeBytes Config.default [0xB3, 0x83, 0x62] = none := by decide +kernel

/-- The opcode table's numbering: the first parcel is the low half (R82). -/
theorem test_decode_table_word :
    decodeTableWord 32 0x006283B3 = some (.add 7 5 6) ∧ decodeTableWord 16 0x952E = some (.cAdd 10 11) := by
  decide +kernel

/-! ## Single steps

Each runs one word on a small state and looks at a few places. The numbers are those of the spec's vectors, whose `mstatus` values
leave out the read-only UXL and SXL fields (assumption log 36). -/

/-- A place of the state and a value it is given, or must have. -/
inductive Place where
  | x (r : Reg) (v : Nat)
  | f (r : Reg) (v : Nat)
  | byte (a v : Nat)
  | csr (a : BitVec 12) (v : Nat)
  | pc (v : Nat)
  | priv (p : Priv)
  | fs (v : Nat)
  | flags (v : Nat)
  | resv (r : Option Reservation)

/-- The place given its value. -/
def Place.put (s : State) : Place → State
  | .x r v => s.setX r (BitVec.ofNat 64 v)
  | .f r v => s.setF r (BitVec.ofNat 64 v)
  | .byte a v => { s with mem := s.mem.place a (BitVec.ofNat 8 v) }
  | .csr a v =>
    match csrAt s.cfg a with
    | some r => s.csrWrite r (s.cfg.xlen.norm (BitVec.ofNat 64 v))
    | none => s
  | .pc v => { s with pc := BitVec.ofNat 64 v }
  | .priv p => { s with priv := p }
  | .fs v => { s with mstatus := { s.mstatus with fs := BitVec.ofNat 2 v } }
  | .flags v => { s with fflags := BitVec.ofNat 5 v }
  | .resv r => { s with resv := r }

/-- The place has its value. -/
def Place.holds (s : State) : Place → Bool
  | .x r v => (s.getX r).toNat == v
  | .f r v => (s.getF r).toNat == v
  | .byte a v => (s.mem.read a).toNat == v
  | .csr a v => (csrAt s.cfg a).any fun r => (s.cfg.xlen.norm (s.csrRead r)).toNat == v
  | .pc v => s.pc.toNat == v
  | .priv p => s.priv == p
  | .fs v => s.mstatus.fs.toNat == v
  | .flags v => s.fflags.toNat == v
  | .resv r => s.resv == r

/-- The state after reset with places given values. -/
def start (c : Config) (l : List Place) : State := l.foldl Place.put (State.resetWith c)

/-- The word's instruction gives a next state in which every place has its value. -/
def runs (c : Config) (before : List Place) (w : BitVec 32) (after : List Place) : Bool :=
  match decode c w with
  | .instr i =>
    match exec i (start c before) with
    | .next t => after.all (Place.holds t)
    | _ => false
  | _ => false

/-- `add x7, x5, x6` -/
theorem test_add_wraps_to_the_sign :
    runs Config.default
      [.x 5 0x7FFFFFFFFFFFFFFF, .x 6 1, .pc 0x1000]
      0x006283B3
      [.x 7 0x8000000000000000, .pc 0x1004] = true := by decide +kernel

/-- `addw x5, x6, x7` -/
theorem test_addw_sign_extends :
    runs Config.default
      [.x 6 0x7FFFFFFF, .x 7 1, .pc 0x1000]
      0x007302BB
      [.x 5 0xFFFFFFFF80000000, .pc 0x1004] = true := by decide +kernel

/-- `addi x5, x6, -2048` -/
theorem test_addi_negative_immediate :
    runs Config.default
      [.x 6 0x800, .x 5 0x55, .pc 0x1000]
      0x80030293
      [.x 5 0, .pc 0x1004] = true := by decide +kernel

/-- `auipc x5, 0x80000` -/
theorem test_auipc_upper_half :
    runs Config.default
      [.pc 0x1000]
      0x80000297
      [.x 5 0xFFFFFFFF80001000, .pc 0x1004] = true := by decide +kernel

/-- `lui x5, 0x80000` -/
theorem test_lui_on_rv32 :
    runs cfg32 [.pc 0x1000] 0x800002B7 [.x 5 0x80000000, .pc 0x1004] = true := by decide +kernel

/-- `sub x5, x6, x7` -/
theorem test_sub_from_the_least :
    runs Config.default
      [.x 6 0x8000000000000000, .x 7 1, .pc 0x1000]
      0x407302B3
      [.x 5 0x7FFFFFFFFFFFFFFF, .pc 0x1004] = true := by decide +kernel

/-- `slt x7, x5, x6` -/
theorem test_slt_is_signed :
    runs Config.default
      [.x 5 0xFFFFFFFFFFFFFFFF, .x 6 1, .pc 0x1000]
      0x0062A3B3
      [.x 7 1, .pc 0x1004] = true := by decide +kernel

/-- `sltu x5, x6, x7` -/
theorem test_sltu_is_unsigned :
    runs Config.default
      [.x 6 0xFFFFFFFFFFFFFFFF, .x 7 1, .pc 0x1000]
      0x007332B3
      [.x 5 0, .pc 0x1004] = true := by decide +kernel

/-- `sltiu x6, x5, -1` -/
theorem test_sltiu_sign_extends_first :
    runs Config.default [.x 5 7, .pc 0x1000] 0xFFF2B313 [.x 6 1, .pc 0x1004] = true := by decide +kernel

/-- `sll x7, x5, x6` -/
theorem test_sll_takes_six_bits :
    runs Config.default
      [.x 5 0x8000000000000001, .x 6 0x41, .pc 0x1000]
      0x006293B3
      [.x 7 2, .pc 0x1004] = true := by decide +kernel

/-- `sll x7, x5, x6` -/
theorem test_sll_takes_five_bits_on_rv32 :
    runs cfg32
      [.x 5 0x80000001, .x 6 0x21, .pc 0x1000]
      0x006293B3
      [.x 7 2, .pc 0x1004] = true := by decide +kernel

/-- `srlw x5, x6, x7` -/
theorem test_srlw_takes_five_bits :
    runs Config.default
      [.x 6 0xFFFFFFFF80000000, .x 7 0x20, .pc 0x1000]
      0x007352BB
      [.x 5 0xFFFFFFFF80000000, .pc 0x1004] = true := by decide +kernel

/-- `sraw x7, x5, x6` -/
theorem test_sraw_keeps_the_sign :
    runs Config.default
      [.x 5 0x7FFFFFFF80000000, .x 6 0x3F, .pc 0x1000]
      0x4062D3BB
      [.x 7 0xFFFFFFFFFFFFFFFF, .pc 0x1004] = true := by decide +kernel

/-- `srai x5, x6, 31` -/
theorem test_srai_on_rv32 :
    runs cfg32
      [.x 6 0x80000000, .pc 0x1000]
      0x41F35293
      [.x 5 0xFFFFFFFF, .pc 0x1004] = true := by decide +kernel

/-- `xori x6, x5, -1` -/
theorem test_xori_on_rv32 :
    runs cfg32 [.x 5 0, .pc 0x1000] 0xFFF2C313 [.x 6 0xFFFFFFFF, .pc 0x1004] = true := by decide +kernel

/-- `beq x5, x6, -8` -/
theorem test_beq_backwards :
    runs Config.default [.x 5 7, .x 6 7, .pc 0x1000] 0xFE628CE3 [.pc 0xFF8] = true := by decide +kernel

/-- `blt x5, x6, -8` -/
theorem test_blt_is_signed :
    runs Config.default
      [.x 5 0xFFFFFFFFFFFFFFFF, .x 6 0, .pc 0x1000]
      0xFE62CCE3
      [.pc 0xFF8] = true := by decide +kernel

/-- `bltu x5, x6, -8` -/
theorem test_bltu_is_unsigned :
    runs Config.default
      [.x 5 0xFFFFFFFFFFFFFFFF, .x 6 0, .pc 0x1000]
      0xFE62ECE3
      [.pc 0x1004] = true := by decide +kernel

/-- `beq x0, x0, +4094` -/
theorem test_beq_far :
    runs Config.default [.pc 0x1000] 0x7E000FE3 [.pc 0x1FFE] = true := by decide +kernel

/-- `jal x0, -4096` -/
theorem test_jal_backwards :
    runs Config.default [.pc 0x2000] 0x800FF06F [.pc 0x1000] = true := by decide +kernel

/-- `jalr x5, 0(x5)` -/
theorem test_jalr_reads_before_writing :
    runs Config.default
      [.x 5 0x2000, .pc 0x1000]
      0x000282E7
      [.x 5 0x1004, .pc 0x2000] = true := by decide +kernel

/-- `jalr x1, 3(x5)` -/
theorem test_jalr_clears_bit_0 :
    runs Config.default
      [.x 5 0x2000, .pc 0x1000]
      0x003280E7
      [.x 1 0x1004, .pc 0x2002] = true := by decide +kernel

/-- `lb x6, -8(x5)` -/
theorem test_lb_sign_extends :
    runs Config.default
      [.x 5 0x2008, .pc 0x1000, .byte 0x2000 0x80, .byte 0x2001 0x91, .byte 0x2002 0xA2,
       .byte 0x2003 0xB3, .byte 0x2004 0xC4, .byte 0x2005 0xD5, .byte 0x2006 0xE6, .byte 0x2007 0xF7]
      0xFF828303
      [.x 6 0xFFFFFFFFFFFFFF80, .pc 0x1004] = true := by decide +kernel

/-- `lhu x6, -8(x5)` -/
theorem test_lhu_zero_extends :
    runs Config.default
      [.x 5 0x2008, .pc 0x1000, .byte 0x2000 0x80, .byte 0x2001 0x91, .byte 0x2002 0xA2,
       .byte 0x2003 0xB3, .byte 0x2004 0xC4, .byte 0x2005 0xD5, .byte 0x2006 0xE6, .byte 0x2007 0xF7]
      0xFF82D303
      [.x 6 0x9180, .pc 0x1004] = true := by decide +kernel

/-- `lwu x6, -8(x5)` -/
theorem test_lwu_zero_extends :
    runs Config.default
      [.x 5 0x2008, .pc 0x1000, .byte 0x2000 0x80, .byte 0x2001 0x91, .byte 0x2002 0xA2,
       .byte 0x2003 0xB3, .byte 0x2004 0xC4, .byte 0x2005 0xD5, .byte 0x2006 0xE6, .byte 0x2007 0xF7]
      0xFF82E303
      [.x 6 0xB3A29180, .pc 0x1004] = true := by decide +kernel

/-- `ld x6, 0(x5)` -/
theorem test_ld_is_little_endian :
    runs Config.default
      [.x 5 0x2000, .pc 0x1000, .byte 0x2000 0x80, .byte 0x2001 0x91, .byte 0x2002 0xA2,
       .byte 0x2003 0xB3, .byte 0x2004 0xC4, .byte 0x2005 0xD5, .byte 0x2006 0xE6, .byte 0x2007 0xF7]
      0x0002B303
      [.x 6 0xF7E6D5C4B3A29180, .pc 0x1004] = true := by decide +kernel

/-- `sb x6, 8(x5)` -/
theorem test_sb_one_byte :
    runs Config.default
      [.x 5 0x2000, .x 6 0x1122334455667788, .pc 0x1000]
      0x00628423
      [.pc 0x1004, .byte 0x2008 0x88] = true := by decide +kernel

/-- `sh x7, 1(x6)` -/
theorem test_sh_misaligned_traps :
    runs cfgMap
      [.x 6 0x2000, .x 7 0xFFFF, .csr 0x305 0x100, .pc 0x1000]
      0x007310A3
      [.csr 0x300 0xA00001800, .csr 0x341 0x1000, .csr 0x342 6, .csr 0x343 0x2001,
       .pc 0x100] = true := by decide +kernel

/-- `sd x6, 8(x5)` -/
theorem test_sd_eight_bytes :
    runs Config.default
      [.x 5 0x2000, .x 6 0x1122334455667788, .pc 0x1000]
      0x0062B423
      [.pc 0x1004, .byte 0x2008 0x88, .byte 0x2009 0x77, .byte 0x200A 0x66, .byte 0x200B 0x55,
       .byte 0x200C 0x44, .byte 0x200D 0x33, .byte 0x200E 0x22,
       .byte 0x200F 0x11] = true := by decide +kernel

/-- `mulh x7, x5, x6` -/
theorem test_mulh_on_rv32 :
    runs cfg32
      [.x 5 0x80000000, .x 6 0x80000000, .pc 0x1000]
      0x026293B3
      [.x 7 0x40000000, .pc 0x1004] = true := by decide +kernel

/-- `mulhsu x7, x5, x6` -/
theorem test_mulhsu_mixed_signs :
    runs Config.default
      [.x 5 0xFFFFFFFFFFFFFFFF, .x 6 0xFFFFFFFFFFFFFFFF, .pc 0x1000]
      0x0262A3B3
      [.x 7 0xFFFFFFFFFFFFFFFF, .pc 0x1004] = true := by decide +kernel

/-- `mulhu x7, x5, x6` -/
theorem test_mulhu_unsigned :
    runs Config.default
      [.x 5 0xFFFFFFFFFFFFFFFF, .x 6 0xFFFFFFFFFFFFFFFF, .pc 0x1000]
      0x0262B3B3
      [.x 7 0xFFFFFFFFFFFFFFFE, .pc 0x1004] = true := by decide +kernel

/-- `mulw x7, x5, x6` -/
theorem test_mulw_sign_extends :
    runs Config.default
      [.x 5 0x10000, .x 6 0x8000, .pc 0x1000]
      0x026283BB
      [.x 7 0xFFFFFFFF80000000, .pc 0x1004] = true := by decide +kernel

/-- `div x7, x5, x6` -/
theorem test_div_truncates :
    runs Config.default
      [.x 5 0xFFFFFFFFFFFFFFF9, .x 6 2, .pc 0x1000]
      0x0262C3B3
      [.x 7 0xFFFFFFFFFFFFFFFD, .pc 0x1004] = true := by decide +kernel

/-- `div x7, x5, x6` -/
theorem test_div_by_zero :
    runs Config.default
      [.x 5 5, .x 6 0, .pc 0x1000]
      0x0262C3B3
      [.x 7 0xFFFFFFFFFFFFFFFF, .pc 0x1004] = true := by decide +kernel

/-- `rem x7, x5, x6` -/
theorem test_rem_overflow :
    runs cfg32
      [.x 5 0x80000000, .x 6 0xFFFFFFFF, .pc 0x1000]
      0x0262E3B3
      [.x 7 0, .pc 0x1004] = true := by decide +kernel

/-- `divuw x7, x5, x6` -/
theorem test_divuw_sign_extends :
    runs Config.default
      [.x 5 0xFFFFFFFE, .x 6 1, .pc 0x1000]
      0x0262D3BB
      [.x 7 0xFFFFFFFFFFFFFFFE, .pc 0x1004] = true := by decide +kernel

/-- `remw x7, x5, x6` -/
theorem test_remw_signed :
    runs Config.default
      [.x 5 0xFFFFFFF9, .x 6 2, .pc 0x1000]
      0x0262E3BB
      [.x 7 0xFFFFFFFFFFFFFFFF, .pc 0x1004] = true := by decide +kernel

/-- `amoadd.w x7, x7, (x6)` -/
theorem test_amoadd_w_same_register :
    runs Config.default
      [.x 6 0x2000, .x 7 1, .pc 0x1000, .byte 0x2000 0xF0, .byte 0x2001 0xFF, .byte 0x2002 0xFF,
       .byte 0x2003 0xFF, .byte 0x2004 5, .byte 0x2005 0, .byte 0x2006 0, .byte 0x2007 0]
      0x007323AF
      [.x 7 0xFFFFFFFFFFFFFFF0, .pc 0x1004, .byte 0x2000 0xF1] = true := by decide +kernel

/-- `amomin.w x7, x6, (x5)` -/
theorem test_amomin_w_is_signed :
    runs Config.default
      [.x 5 0x2000, .x 6 1, .pc 0x1000, .byte 0x2000 0xFF, .byte 0x2001 0xFF, .byte 0x2002 0xFF,
       .byte 0x2003 0xFF]
      0x8062A3AF
      [.x 7 0xFFFFFFFFFFFFFFFF, .pc 0x1004] = true := by decide +kernel

/-- `amomaxu.w x7, x6, (x5)` -/
theorem test_amomaxu_w_is_unsigned :
    runs Config.default
      [.x 5 0x2000, .x 6 1, .pc 0x1000, .byte 0x2000 0xFF, .byte 0x2001 0xFF, .byte 0x2002 0xFF,
       .byte 0x2003 0xFF]
      0xE062A3AF
      [.x 7 0xFFFFFFFFFFFFFFFF, .pc 0x1004] = true := by decide +kernel

/-- `amomax.d x7, x6, (x5)` -/
theorem test_amomax_d_stores :
    runs Config.default
      [.x 5 0x2000, .x 6 1, .pc 0x1000, .byte 0x2000 0xFF, .byte 0x2001 0xFF, .byte 0x2002 0xFF,
       .byte 0x2003 0xFF, .byte 0x2004 0xFF, .byte 0x2005 0xFF, .byte 0x2006 0xFF, .byte 0x2007 0xFF]
      0xA062B3AF
      [.x 7 0xFFFFFFFFFFFFFFFF, .pc 0x1004, .byte 0x2000 1, .byte 0x2001 0, .byte 0x2002 0,
       .byte 0x2003 0, .byte 0x2004 0, .byte 0x2005 0, .byte 0x2006 0,
       .byte 0x2007 0] = true := by decide +kernel

/-- `lr.w x5, (x6)` -/
theorem test_lr_w_sign_extends :
    runs Config.default
      [.x 6 0x2000, .pc 0x1000, .byte 0x2000 0xF0, .byte 0x2001 0xFF, .byte 0x2002 0xFF,
       .byte 0x2003 0xFF, .byte 0x2004 5, .byte 0x2005 0, .byte 0x2006 0, .byte 0x2007 0]
      0x100322AF
      [.x 5 0xFFFFFFFFFFFFFFF0, .pc 0x1004] = true := by decide +kernel

/-- `csrrw x5, 0x340, x5` -/
theorem test_csrrw_swaps :
    runs Config.default
      [.x 5 0x1234, .csr 0x340 0xABCD, .pc 0x1000]
      0x340292F3
      [.x 5 0xABCD, .csr 0x340 0x1234, .pc 0x1004] = true := by decide +kernel

/-- `csrrci x5, 0x340, 10` -/
theorem test_csrrci_clears :
    runs Config.default
      [.csr 0x340 0xAAAA, .pc 0x1000]
      0x340572F3
      [.x 5 0xAAAA, .csr 0x340 0xAAA0, .pc 0x1004] = true := by decide +kernel

/-- `csrrs x6, 0xF14, x0` -/
theorem test_csrrs_reads_a_read_only :
    runs cfg32 [.pc 0x1000] 0xF1402373 [.x 6 0, .pc 0x1004] = true := by decide +kernel

/-- `csrrw x5, 0x7C0, x6` -/
theorem test_csrrw_absent :
    runs Config.default
      [.x 6 1, .csr 0x305 0x100, .pc 0x1000]
      0x7C0312F3
      [.csr 0x300 0xA00001800, .csr 0x341 0x1000, .csr 0x342 2, .pc 0x100] = true := by decide +kernel

/-- `ecall` -/
theorem test_ecall_from_m :
    runs Config.default
      [.csr 0x305 0x80, .csr 0x300 8, .pc 0x1000]
      0x00000073
      [.csr 0x300 0xA00001880, .csr 0x341 0x1000, .csr 0x342 0xB, .pc 0x80] = true := by decide +kernel

/-- `ebreak` -/
theorem test_ebreak_vectored_base :
    runs Config.default
      [.csr 0x305 0x101, .csr 0x300 8, .pc 0x1000]
      0x00100073
      [.csr 0x300 0xA00001880, .csr 0x341 0x1000, .csr 0x342 3, .pc 0x100] = true := by decide +kernel

/-- `mret` -/
theorem test_mret_to_u :
    runs Config.default
      [.csr 0x300 0x80, .csr 0x341 0x2000, .pc 0x1000]
      0x30200073
      [.csr 0x300 0xA00000088, .pc 0x2000, .priv .u] = true := by decide +kernel

/-- `mret` -/
theorem test_mret_stays_in_m :
    runs cfg32
      [.csr 0x300 0x1800, .csr 0x341 0x3002, .pc 0x1000]
      0x30200073
      [.csr 0x300 0x80, .pc 0x3002] = true := by decide +kernel

/-- `sret` -/
theorem test_sret_to_s :
    runs Config.default
      [.csr 0x300 0x120, .csr 0x141 0x2000, .pc 0x1000, .priv .s]
      0x10200073
      [.csr 0x300 0xA00000022, .pc 0x2000, .priv .s] = true := by decide +kernel

/-- `wfi` -/
theorem test_wfi_completes :
    runs Config.default [.pc 0x1000] 0x10500073 [.pc 0x1004] = true := by decide +kernel

/-- `sfence.vma x0, x0` -/
theorem test_sfence_vma_completes :
    runs Config.default [.pc 0x1000] 0x12000073 [.pc 0x1004] = true := by decide +kernel

/-- `fence.i` -/
theorem test_fence_i_completes :
    runs Config.default [.pc 0x1000] 0x0000100F [.pc 0x1004] = true := by decide +kernel

/-- `fence r, rw` -/
theorem test_fence_completes :
    runs Config.default [.pc 0x1000] 0x0230000F [.pc 0x1004] = true := by decide +kernel

/-- `fadd.s f1, f2, f3, dyn` -/
theorem test_fadd_s_dynamic_rounding :
    runs Config.default
      [.fs 1, .f 2 0xFFFFFFFF3F800000, .f 3 0xFFFFFFFF33800000, .csr 0x3 0x60]
      0x003170D3
      [.f 1 0xFFFFFFFF3F800001, .csr 0x3 0x61, .fs 3] = true := by decide +kernel

/-- `fadd.s f3, f1, f2` -/
theorem test_fadd_s_unboxed :
    runs Config.default
      [.fs 1, .f 1 0x3F800000, .f 2 0xFFFFFFFF3F800000]
      0x0020F1D3
      [.f 3 0xFFFFFFFF7FC00000, .flags 0] = true := by decide +kernel

/-- `fmul.d f3, f1, f2` -/
theorem test_fmul_d_underflows :
    runs Config.default
      [.fs 1, .f 1 1, .f 2 0x3FE0000000000000]
      0x1220F1D3
      [.f 3 0, .flags 3] = true := by decide +kernel

/-- `fdiv.s f3, f1, f2` -/
theorem test_fdiv_s_by_zero :
    runs Config.default
      [.fs 1, .f 1 0xFFFFFFFFBF800000, .f 2 0xFFFFFFFF00000000]
      0x1820F1D3
      [.f 3 0xFFFFFFFFFF800000, .flags 8] = true := by decide +kernel

/-- `fsqrt.s f3, f1` -/
theorem test_fsqrt_s_of_negative :
    runs Config.default
      [.fs 1, .f 1 0xFFFFFFFFBF800000]
      0x5800F1D3
      [.f 3 0xFFFFFFFF7FC00000, .flags 16] = true := by decide +kernel

/-- `fmadd.s f4, f1, f2, f3` -/
theorem test_fmadd_s_one_rounding :
    runs Config.default
      [.fs 1, .f 1 0xFFFFFFFF3F800001, .f 2 0xFFFFFFFF3F800001, .f 3 0xFFFFFFFFBF800000]
      0x1820F243
      [.f 4 0xFFFFFFFF34800000, .flags 1] = true := by decide +kernel

/-- `fnmadd.d f4, f1, f2, f3` -/
theorem test_fnmadd_d_signs :
    runs Config.default
      [.fs 1, .f 1 0x3FF0000000000001, .f 2 0x3FF0000000000001, .f 3 0xBFF0000000000000]
      0x1A20F24F
      [.f 4 0xBCC0000000000000, .flags 1] = true := by decide +kernel

/-- `fmin.s f3, f1, f2` -/
theorem test_fmin_s_signaling :
    runs Config.default
      [.fs 1, .f 1 0xFFFFFFFF7F800001, .f 2 0xFFFFFFFF3F800000]
      0x282081D3
      [.f 3 0xFFFFFFFF3F800000, .flags 16] = true := by decide +kernel

/-- `feq.s x5, f2, f3` -/
theorem test_feq_s_signaling :
    runs Config.default
      [.fs 1, .f 2 0xFFFFFFFF7F800001, .f 3 0xFFFFFFFF7F800001, .csr 0x3 0]
      0xA03122D3
      [.x 5 0, .csr 0x3 0x10] = true := by decide +kernel

/-- `flt.d x5, f1, f2` -/
theorem test_flt_d_zeros :
    runs Config.default
      [.fs 1, .f 1 0x8000000000000000, .f 2 0]
      0xA22092D3
      [.x 5 0, .flags 0] = true := by decide +kernel

/-- `fclass.s x5, f1` -/
theorem test_fclass_s_unboxed :
    runs Config.default
      [.fs 1, .f 1 0x3F800000]
      0xE00092D3
      [.x 5 0x200, .flags 0] = true := by decide +kernel

/-- `fcvt.w.s x5, f1` -/
theorem test_fcvt_w_s_negative_infinity :
    runs Config.default
      [.fs 1, .f 1 0xFFFFFFFFFF800000]
      0xC000F2D3
      [.x 5 0xFFFFFFFF80000000, .flags 16] = true := by decide +kernel

/-- `fcvt.wu.d x5, f1` -/
theorem test_fcvt_wu_d_sign_extends :
    runs Config.default
      [.fs 1, .f 1 0x41E0000000000000]
      0xC210F2D3
      [.x 5 0xFFFFFFFF80000000, .flags 0] = true := by decide +kernel

/-- `fcvt.l.d x5, f1` -/
theorem test_fcvt_l_d_rounds :
    runs Config.default
      [.fs 1, .f 1 0xBFF8000000000000]
      0xC220F2D3
      [.x 5 0xFFFFFFFFFFFFFFFE, .flags 1] = true := by decide +kernel

/-- `fcvt.s.w f1, x6, rne` -/
theorem test_fcvt_s_w_low_word :
    runs Config.default
      [.fs 1, .x 6 0xFFFFFFFF01000001, .csr 0x3 0]
      0xD00300D3
      [.f 1 0xFFFFFFFF4B800000, .csr 0x3 1] = true := by decide +kernel

/-- `fcvt.d.lu f1, x6, rup` -/
theorem test_fcvt_d_lu_rounds_up :
    runs Config.default
      [.fs 1, .x 6 0xFFFFFFFFFFFFFFFF, .csr 0x3 0]
      0xD23330D3
      [.f 1 0x43F0000000000000, .csr 0x3 1] = true := by decide +kernel

/-- `fcvt.s.d f1, f2, rup` -/
theorem test_fcvt_s_d_least_subnormal :
    runs Config.default
      [.fs 1, .f 2 0x3690000000000000, .csr 0x3 0]
      0x401130D3
      [.f 1 0xFFFFFFFF00000001, .csr 0x3 3] = true := by decide +kernel

/-- `fcvt.d.s f1, f2, rne` -/
theorem test_fcvt_d_s_signaling :
    runs Config.default
      [.fs 1, .f 2 0xFFFFFFFF7F800001, .csr 0x3 0]
      0x420100D3
      [.f 1 0x7FF8000000000000, .csr 0x3 0x10] = true := by decide +kernel

/-- `fsgnjx.d f3, f1, f2` -/
theorem test_fsgnjx_d_signs :
    runs Config.default
      [.fs 1, .f 1 0x3FF0000000000000, .f 2 0xBFF0000000000000]
      0x2220A1D3
      [.f 3 0xBFF0000000000000, .flags 0] = true := by decide +kernel

/-- `fmv.x.w x5, f1` -/
theorem test_fmv_x_w_sign_extends :
    runs Config.default
      [.fs 1, .f 1 0xBF800000]
      0xE00082D3
      [.x 5 0xFFFFFFFFBF800000, .flags 0] = true := by decide +kernel

/-- `fmv.w.x f3, x5` -/
theorem test_fmv_w_x_boxes :
    runs Config.default
      [.fs 1, .x 5 0x123456783F800000]
      0xF00281D3
      [.f 3 0xFFFFFFFF3F800000, .flags 0] = true := by decide +kernel

/-- `flw f1, 4(x6)` -/
theorem test_flw_boxes :
    runs Config.default
      [.fs 1, .x 6 0x2000, .byte 0x2004 1, .byte 0x2005 0, .byte 0x2006 0x80, .byte 0x2007 0x7F]
      0x00432087
      [.f 1 0xFFFFFFFF7F800001] = true := by decide +kernel

/-- `fsd f3, 0(x5)` -/
theorem test_fsd_all_bits :
    runs Config.default
      [.fs 1, .x 5 0x2000, .f 3 0xFFFFFFFF3F800000]
      0x0032B027
      [.byte 0x2000 0, .byte 0x2001 0, .byte 0x2002 0x80, .byte 0x2003 0x3F, .byte 0x2004 0xFF,
       .byte 0x2005 0xFF, .byte 0x2006 0xFF, .byte 0x2007 0xFF] = true := by decide +kernel

/-- `c.addi x5, 31` -/
theorem test_c_addi_wraps :
    runs Config.default
      [.x 5 0xFFFFFFFFFFFFFFE1, .pc 0x1000]
      0x000002FD
      [.x 5 0, .pc 0x1002] = true := by decide +kernel

/-- `c.addi16sp -512` -/
theorem test_c_addi16sp_negative :
    runs Config.default
      [.x 2 0x3000, .pc 0x1000]
      0x00007101
      [.x 2 0x2E00, .pc 0x1002] = true := by decide +kernel

/-- `c.addi4spn x8, 1020` -/
theorem test_c_addi4spn_far :
    runs Config.default
      [.x 2 0x3000, .pc 0x1000]
      0x00001FE0
      [.x 8 0x33FC, .pc 0x1002] = true := by decide +kernel

/-- `c.lui x5, 0xFFFFF` -/
theorem test_c_lui_negative :
    runs Config.default
      [.pc 0x1000]
      0x000072FD
      [.x 5 0xFFFFFFFFFFFFF000, .pc 0x1002] = true := by decide +kernel

/-- `c.beqz x8, -4` -/
theorem test_c_beqz_backwards :
    runs Config.default [.x 8 0, .pc 0x1004] 0x0000DC75 [.pc 0x1000] = true := by decide +kernel

/-- `c.j -2048` -/
theorem test_c_j_backwards :
    runs Config.default [.pc 0x2000] 0x0000B001 [.pc 0x1800] = true := by decide +kernel

/-- `c.jal -4` -/
theorem test_c_jal_links :
    runs cfg32 [.pc 0x1004] 0x00003FF5 [.x 1 0x1006, .pc 0x1000] = true := by decide +kernel

/-- `c.jalr x1` -/
theorem test_c_jalr_reads_before_writing :
    runs Config.default
      [.x 1 0x2000, .pc 0x1002]
      0x00009082
      [.x 1 0x1004, .pc 0x2000] = true := by decide +kernel

/-- `c.lwsp x5, 8(x2)` -/
theorem test_c_lwsp_sign_extends :
    runs Config.default
      [.x 2 0x3000, .pc 0x1000, .byte 0x3008 0xFF, .byte 0x3009 0xFF, .byte 0x300A 0xFF,
       .byte 0x300B 0xFF, .byte 0x300C 1, .byte 0x300D 0, .byte 0x300E 0, .byte 0x300F 0]
      0x000042A2
      [.x 5 0xFFFFFFFFFFFFFFFF, .pc 0x1002] = true := by decide +kernel

/-- `c.sdsp x5, 8(x2)` -/
theorem test_c_sdsp_stores :
    runs Config.default
      [.x 2 0x3000, .x 5 0x1122334455667788, .pc 0x1000]
      0x0000E416
      [.pc 0x1002, .byte 0x3008 0x88, .byte 0x3009 0x77, .byte 0x300A 0x66, .byte 0x300B 0x55,
       .byte 0x300C 0x44, .byte 0x300D 0x33, .byte 0x300E 0x22,
       .byte 0x300F 0x11] = true := by decide +kernel

/-- `c.fld f9, 8(x10)` -/
theorem test_c_fld_loads :
    runs Config.default
      [.fs 1, .x 10 0x2000, .pc 0x1000, .byte 0x2008 0, .byte 0x2009 0, .byte 0x200A 0x80,
       .byte 0x200B 0x3F, .byte 0x200C 0, .byte 0x200D 0, .byte 0x200E 0xF0, .byte 0x200F 0x3F]
      0x00002504
      [.f 9 0x3FF000003F800000, .pc 0x1002, .fs 3] = true := by decide +kernel

/-- `c.srai x8, 4` -/
theorem test_c_srai_keeps_the_sign :
    runs Config.default
      [.x 8 0x8000000000000010, .pc 0x1000]
      0x00008411
      [.x 8 0xF800000000000001, .pc 0x1002] = true := by decide +kernel

/-- `c.subw x8, x9` -/
theorem test_c_subw_sign_extends :
    runs Config.default
      [.x 8 0x7FFFFFFF, .x 9 0xFFFFFFFFFFFFFFFF, .pc 0x1000]
      0x00009C05
      [.x 8 0xFFFFFFFF80000000, .pc 0x1002] = true := by decide +kernel

/-- `c.ebreak` -/
theorem test_c_ebreak_traps :
    runs Config.default
      [.csr 0x305 0x8000, .pc 0x1000]
      0x00009002
      [.csr 0x300 0xA00001800, .csr 0x341 0x1000, .csr 0x342 3, .pc 0x8000] = true := by decide +kernel

/-! ## The hypotheses of the obligations are met

For each obligation with hypotheses, a state and operands that meet them, at an end of their range where there
is one. -/

/-- A checked form of `Untranslated`. -/
def plain (s : State) (acc : Access) : Bool :=
  !s.cfg.hasS || s.effPriv acc == .m || (s.staleSatp == [] && satpScheme s.cfg s.satp == none)

theorem found_plain {s : State} {acc : Access} {a : Nat} (h : plain s acc = true) : Finds s acc a a :=
  .inl ⟨by simpa [plain, Untranslated, or_assoc] using h, rfl⟩

/-- `Reaches` from a computation. -/
theorem reaches_of {s : State} {op : MemOp} {a n p : Nat} (hf : Finds s op.access a p) (ha : a % n = 0)
    (h : (List.range n).all (fun k => (s.cfg.regionAt (p + k)).any fun r => op.allowed r && !r.io) = true) :
    Reaches s op a n p := by
  refine ⟨hf, ha, fun k hk => ?_⟩
  have := List.all_eq_true.mp h k (List.mem_range.mpr hk)
  cases hr : s.cfg.regionAt (p + k) with
  | none => simp [hr] at this
  | some r => simp [hr] at this; exact ⟨r, rfl, this⟩

/-- `Forbidden` from a computation at one byte. -/
theorem forbidden_of {s : State} {op : MemOp} {a n : Nat} (k : Nat) (hp : plain s op.access = true)
    (ha : a % n = 0) (hk : k < n) (h : (s.cfg.regionAt (a + k)).all (fun r => !op.allowed r) = true) :
    Forbidden s op a n :=
  ⟨ha, .inl ⟨a, found_plain hp, k, hk, fun r hr => by simpa [hr] using h⟩⟩

/-- `TouchesIo` at the first byte, from a computation. -/
theorem io_of {s : State} {op : MemOp} {a n : Nat} (hp : plain s op.access = true) (ha : a % n = 0)
    (h : (List.range n).all (fun k => (s.cfg.regionAt (a + k)).any fun r => op.allowed r) = true)
    (hn : 0 < n) (hio : (s.cfg.regionAt a).any (·.io) = true) : TouchesIo s op a n a a := by
  refine ⟨found_plain hp, ha, fun k hk => ?_, Nat.le_refl _, by omega, ?_, fun c h1 h2 => by omega⟩
  · have := List.all_eq_true.mp h k (List.mem_range.mpr hk)
    cases hr : s.cfg.regionAt (a + k) with
    | none => simp [hr] at this
    | some r => simp [hr] at this; exact ⟨r, rfl, this⟩
  · cases hr : s.cfg.regionAt a with
    | none => simp [hr] at hio
    | some r => simp [hr] at hio; exact ⟨r, rfl, hio⟩

/-- `ParcelAt` from a computation, where nothing waits for a `fence.i`. -/
theorem parcel_of {s : State} {a p : Nat} (hf : Finds s .fetch a p)
    (h : (List.range 2).all (fun k => (s.cfg.regionAt (p + k)).any fun r => r.executable && !r.io) = true)
    (hs : s.mem.staleCode = []) : ParcelAt s a p := by
  refine ⟨hf, fun k hk => ?_, fun before hm => ?_⟩
  · have := List.all_eq_true.mp h k (List.mem_range.mpr hk)
    cases hr : s.cfg.regionAt (p + k) with
    | none => simp [hr] at this
    | some r => simp [hr] at this; exact ⟨r, rfl, this⟩
  · rw [hs] at hm; cases hm

/-! Walks, computed. -/

/-- Where a walk comes to. -/
inductive Visit where
  | leaf (level addr pte : Nat)
  | invalid
  | unreadable
  deriving DecidableEq, Repr

/-- The walk from level `i` with the table at `table`. -/
def visit (s : State) (sch : Scheme) (v : Word) : (i table : Nat) → Visit
  | i, table =>
    if allIn s.cfg (fun r => r.readable && !r.io) (bytesFrom (sch.entry v table i) sch.pteSize) then
      let pte := s.entryAt sch v table i
      if !pte.testBit 0 || (!pte.testBit 1 && pte.testBit 2) then .invalid
      else if pte % 16 == 1 then
        match i with
        | 0 => .invalid
        | i + 1 => visit s sch v i (sch.target pte)
      else .leaf i (sch.entry v table i) pte
    else .unreadable

/-- What the walk comes to, as the statements say it. -/
def Visit.says (s : State) (sch : Scheme) (v : Word) (i table : Nat) : Visit → Prop
  | .leaf j a pte => ReachesLeaf s sch v i table j a pte
  | .invalid => ReachesInvalid s sch v i table
  | .unreadable => ReachesUnreadable s sch v i table

theorem visit_says (s : State) (sch : Scheme) (v : Word) (i table : Nat) :
    (visit s sch v i table).says s sch v i table := by
  induction i generalizing table with
  | zero =>
    unfold visit
    split
    · rename_i hr
      have hr := (pteIn_iff _ _ _ _).1 hr
      dsimp only
      split
      · rename_i hv
        exact .here _ _ hr (by simpa [PteInvalid] using hv)
      · rename_i hv
        split
        · rename_i hp
          exact .deep _ hr (by simpa [PtePointer] using hp)
        · rename_i hp
          exact .here _ _ hr ⟨by simpa [PteInvalid] using hv, by simpa [PtePointer] using hp⟩
    · rename_i hr
      exact .here _ _ fun h => hr ((pteIn_iff _ _ _ _).2 h)
  | succ i ih =>
    unfold visit
    split
    · rename_i hr
      have hr := (pteIn_iff _ _ _ _).1 hr
      dsimp only
      split
      · rename_i hv
        exact .here _ _ hr (by simpa [PteInvalid] using hv)
      · rename_i hv
        split
        · rename_i hp
          have hp : PtePointer (s.entryAt sch v table (i + 1)) := by simpa [PtePointer] using hp
          have := ih (sch.target (s.entryAt sch v table (i + 1)))
          cases hw : visit s sch v i (sch.target (s.entryAt sch v table (i + 1))) <;>
            (rw [hw] at this; first | exact .next _ _ _ _ _ hr hp this | exact .next _ _ hr hp this)
        · rename_i hp
          exact .here _ _ hr ⟨by simpa [PteInvalid] using hv, by simpa [PtePointer] using hp⟩
    · rename_i hr
      exact .here _ _ fun h => hr ((pteIn_iff _ _ _ _).2 h)

/-- A checked form of `PagingOn`. -/
def paging (s : State) (acc : Access) : Scheme → Bool
  | .sv32 => s.cfg.hasS && s.effPriv acc != .m && s.staleSatp == [] && s.mem.stalePte == [] &&
      s.cfg.xlen == .rv32 && s.satp.toNat / 2 ^ 31 % 2 == 1
  | .sv39 => s.cfg.hasS && s.effPriv acc != .m && s.staleSatp == [] && s.mem.stalePte == [] &&
      s.cfg.xlen == .rv64 && s.satp.toNat / 2 ^ 60 == 8
  | .sv48 => s.cfg.hasS && s.effPriv acc != .m && s.staleSatp == [] && s.mem.stalePte == [] &&
      s.cfg.xlen == .rv64 && s.satp.toNat / 2 ^ 60 == 9

theorem on_of {s : State} {acc : Access} {sch : Scheme} (h : paging s acc sch = true) :
    PagingOn s acc sch := by
  cases sch <;>
    (simp only [paging, Bool.and_eq_true, beq_iff_eq, bne_iff_ne] at h
     exact ⟨h.1.1.1.1.1, h.1.1.1.1.2, ⟨h.1.2, h.2⟩, h.1.1.1.2, h.1.1.2⟩)

/-- Where the walk for an address comes to. -/
def find (s : State) (acc : Access) (sch : Scheme) (v : Word) : Option Visit :=
  if paging s acc sch && sch.canonical v then some (visit s sch v sch.top (s.rootTable sch)) else none

theorem find_some {s : State} {acc : Access} {sch : Scheme} {v : Word} {r : Visit}
    (h : find s acc sch v = some r) :
    PagingOn s acc sch ∧ sch.holds v ∧ r.says s sch v sch.top (s.rootTable sch) := by
  unfold find at h
  split at h
  · rename_i hc
    simp only [Bool.and_eq_true] at hc
    cases h
    exact ⟨on_of hc.1, (sch.canonical_iff v).1 hc.2, visit_says s sch v _ _⟩
  · cases h

/-- A checked form of `LeafMaps` and `LeafUsed`. -/
def mapsOk (s : State) (acc : Access) (sch : Scheme) (v : Word) (j pte : Nat) : Bool :=
  s.leafAllows { acc := acc, priv := s.effPriv acc, vaddr := v, scheme := sch, asid := 0 } pte &&
    pte / 1024 % 2 ^ (sch.vpnBits * j) == 0

theorem leafMaps_iff (s : State) (acc : Access) (sch : Scheme) (v : Word) (j pte : Nat) :
    mapsOk s acc sch v j pte = true ↔ LeafMaps s acc sch j pte := by
  simp only [mapsOk, Bool.and_eq_true, beq_iff_eq, leafAllows_iff, LeafMaps]

theorem leafUsed_iff (acc : Access) (pte : Nat) : needsAdUpdate acc pte = false ↔ LeafUsed acc pte := by
  rw [← Bool.not_eq_true, needsAdUpdate_iff, not_not]

/-- `Finds` through a page table, from a computation. -/
theorem found_mapped {s : State} {acc : Access} {a : Nat} (sch : Scheme) (j e pte : Nat)
    (h : find s acc sch (BitVec.ofNat 64 a) = some (.leaf j e pte))
    (hm : mapsOk s acc sch (BitVec.ofNat 64 a) j pte = true) (hu : needsAdUpdate acc pte = false) :
    Finds s acc a (sch.under j pte (BitVec.ofNat 64 a)) := by
  obtain ⟨hon, hv, hw⟩ := find_some h
  exact .inr ⟨sch, j, e, pte, hon, hv, hw, (leafMaps_iff _ _ _ _ _ _).1 hm, (leafUsed_iff _ _).1 hu, rfl⟩

/-- `Unmapped` from a walk that comes to an invalid entry. -/
theorem unmapped_invalid {s : State} {acc : Access} {v : Word} (sch : Scheme)
    (h : find s acc sch v = some .invalid) : Unmapped s acc v := by
  obtain ⟨hon, hv, hw⟩ := find_some h
  exact ⟨sch, hon, .inr (.inl ⟨hv, hw⟩)⟩

/-- A next state with a property, from a computation. -/
theorem next_of {o : Result} {p : State → Bool}
    (h : (match o with
      | .next t => p t
      | _ => false) = true) : ∃ t, o = .next t ∧ p t = true := by
  cases o with
  | next t => exact ⟨t, rfl, h⟩
  | fault f => cases h
  | refused r => cases h

/-- M-mode; x5 at the start of main memory's last page, x6 just after its end, x7 -1. -/
def lab : State := start cfgMap [.x 5 0x3000, .x 6 0x4000, .x 7 0xFFFFFFFFFFFFFFFF, .fs 1, .pc 0x1000]

/-- The same in U-mode with every delegable trap delegated. -/
def labU : State := start cfgMap [.csr 0x302 0xFFFF, .csr 0x303 0xFFFF, .fs 1, .pc 0x1000, .priv .u]

/-- The same in S-mode, with TVM, TW and TSR set. -/
def labS : State :=
  start cfgMap [.csr 0x302 0xFFFF, .csr 0x303 0xFFFF, .csr 0x300 0x702000, .pc 0x1000, .priv .s]

/-- M-mode with IALIGN = 32 and x5 = 2. -/
def labNoC : State := start cfgNoC [.x 5 2, .pc 0x1000]

/-- M-mode with `add x7, x5, x6` next. -/
def labAdd : State := State.reset.withFetchWord 32 0x006283B3

theorem lab_at : AtInstruction lab := ⟨by decide +kernel, by decide +kernel, rfl⟩
theorem labU_at : AtInstruction labU := ⟨by decide +kernel, by decide +kernel, rfl⟩
theorem labS_at : AtInstruction labS := ⟨by decide +kernel, by decide +kernel, rfl⟩
theorem labNoC_at : AtInstruction labNoC := ⟨by decide +kernel, by decide +kernel, rfl⟩

theorem witness_DecodeUndoesEncode :
    [Instr.addi 31 31 (-1), .slli 31 31 63, .cLui 31 63, .cAddi4spn 7 255, .csrrw 31 0xFFF 31].all
      (fun i => i.existsIn Config.default && i.operandsOk Config.default) = true := by decide +kernel

theorem witness_EncodeUndoesDecode :
    decode Config.default 0xFFFF8F93 = .instr (.addi 31 31 (-1)) ∧
      decode Config.default 0xFFFF12FD = .instr (.cAddi 5 (-1)) := by decide +kernel

theorem labAdd_fetch : FetchAt labAdd.beginStep 0x1000 0x1002 :=
  ⟨parcel_of (found_plain (by decide +kernel)) (by decide +kernel) (by decide +kernel),
    fun _ => parcel_of (found_plain (by decide +kernel)) (by decide +kernel) (by decide +kernel)⟩

theorem witness_StepRunsDecodedInstruction :
    labAdd.beginStep.pendingInterrupt = none ∧ FetchAt labAdd.beginStep 0x1000 0x1002 ∧
      decode labAdd.cfg (labAdd.beginStep.wordAt 0x1000 0x1002) = .instr (.add 7 5 6) ∧
      labAdd.beginStep.fetch = .ok (labAdd.beginStep, 0x006283B3) :=
  ⟨by decide +kernel, labAdd_fetch, by decide +kernel, by decide +kernel⟩

/-- S-mode with a scheme on, the root table at 0x1000, and the given bytes, after a fence. -/
def pagedBy (c : Config) (satp : Nat) (l : List Place) : State :=
  { start c ([.csr 0x180 satp, .priv .s] ++ l) with staleSatp := [] }

/-- The same with Sv39. -/
def paged (l : List Place) : State :=
  pagedBy { Config.default with sv39 := true } 0x8000000000000001 l

/-- Two pointers to a leaf for page 0 with the given flags and the frame at 0x4000. -/
def mapped (flags : Nat) : State :=
  paged [.byte 0x1000 0x01, .byte 0x1001 0x08, .byte 0x2000 0x01, .byte 0x2001 0x0C,
    .byte 0x3000 flags, .byte 0x3001 0x10]

/-- Page 0 with D, A, X, W, R, V is found in its frame by every access, at both its ends. -/
theorem mapped_finds : Finds (mapped 0xCF) .fetch 0 0x4000 ∧ Finds (mapped 0xCF) .fetch 0xFFE 0x4FFE ∧
    Finds (mapped 0xCF) .load 0xFF8 0x4FF8 ∧ Finds (mapped 0xCF) .store 0xFF8 0x4FF8 := by
  refine ⟨?_, ?_, ?_, ?_⟩ <;>
    exact found_mapped .sv39 0 0x3000 0x10CF (by decide +kernel) (by decide +kernel) (by decide +kernel)

/-- The page's code, `c.addi x5, -1` at 0 and half an instruction of four bytes at its end. -/
def mappedCode : State :=
  { mapped 0xCF with pc := 0, mem := (((mapped 0xCF).mem.placeParcel 0x4000 0x12FD).placeParcel 0x4FFE 0x83B3) }

/-- At the page's end. -/
def mappedCodeEnd : State := { mappedCode with pc := 0xFFE }

theorem mappedCode_finds : Finds mappedCode.beginStep .fetch mappedCode.beginStep.pc.toNat 0x4000 ∧
    Finds mappedCodeEnd.beginStep .fetch mappedCodeEnd.beginStep.pc.toNat 0x4FFE := by
  refine ⟨?_, ?_⟩
  · exact found_mapped .sv39 0 0x3000 0x10CF (by decide +kernel) (by decide +kernel) (by decide +kernel)
  · rw [show mappedCodeEnd.beginStep.pc.toNat = 0xFFE by decide +kernel]
    exact found_mapped .sv39 0 0x3000 0x10CF (by decide +kernel) (by decide +kernel) (by decide +kernel)

theorem mappedCode_second :
    isLong (BitVec.ofNat 16 (mappedCode.beginStep.bytesAt 0x4000 2)) = false := by decide +kernel

theorem witness_StepRunsDecodedInstruction_translated :
    mappedCode.beginStep.pendingInterrupt = none ∧ FetchAt mappedCode.beginStep 0x4000 0 ∧
      decode mappedCode.cfg (mappedCode.beginStep.wordAt 0x4000 0) = .instr (.cAddi 5 (-1)) :=
  ⟨by decide +kernel,
    ⟨parcel_of mappedCode_finds.1 (by decide +kernel) (by decide +kernel),
      fun h => absurd h (by rw [mappedCode_second]; decide)⟩, by decide +kernel⟩

theorem witness_StepsWithoutAnInstructionTrap_illegal :
    State.reset.beginStep.pendingInterrupt = none ∧ AtInstruction State.reset.beginStep ∧
      FetchAt State.reset.beginStep 0x1000 0 ∧
      ∀ i, decode State.reset.cfg (State.reset.beginStep.wordAt 0x1000 0) ≠ .instr i := by
  refine ⟨by decide +kernel, ⟨by decide +kernel, by decide +kernel, rfl⟩, ⟨?_, ?_⟩, fun i h => ?_⟩
  · exact parcel_of (found_plain (by decide +kernel)) (by decide +kernel) (by decide +kernel)
  · intro h
    exact absurd h (by decide +kernel)
  · rw [show decode State.reset.cfg (State.reset.beginStep.wordAt 0x1000 0) = .badOperands (.cAddi4spn 0 0) by
      decide +kernel] at h
    cases h

/-- The first address above the last region; and an instruction's second parcel just after executable memory,
which is in the next page. -/
theorem witness_StepsWithoutAnInstructionTrap_access :
    (let s := start cfgMap [.pc 0x6000]
     s.beginStep.pendingInterrupt = none ∧ AtInstruction s.beginStep ∧ Forbidden s.beginStep .fetch 0x6000 2) ∧
    (let s := start cfgMap [.pc 0x3FFE, .byte 0x3FFE 0xB3]
     s.beginStep.pendingInterrupt = none ∧ AtInstruction s.beginStep ∧
       ParcelAt s.beginStep s.beginStep.pc.toNat 0x3FFE ∧
       isLong (BitVec.ofNat 16 (s.beginStep.bytesAt 0x3FFE 2)) = true ∧
       Forbidden s.beginStep .fetch (s.beginStep.pcPlus 2).toNat 2) := by
  refine ⟨⟨by decide +kernel, ⟨by decide +kernel, by decide +kernel, rfl⟩, ?_⟩, by decide +kernel,
    ⟨by decide +kernel, by decide +kernel, rfl⟩, ?_, by decide +kernel, ?_⟩
  · exact forbidden_of 0 (by decide +kernel) (by decide) (by decide) (by decide +kernel)
  · exact parcel_of (found_plain (by decide +kernel)) (by decide +kernel) (by decide +kernel)
  · exact forbidden_of 0 (by decide +kernel) (by decide +kernel) (by decide) (by decide +kernel)

/-- The first address of an unmapped page, and an instruction's second parcel there. -/
theorem witness_StepsWithoutAnInstructionTrap_page :
    (let s := { mappedCode with pc := 0x1000 }
     s.beginStep.pendingInterrupt = none ∧ AtInstruction s.beginStep ∧
       Unmapped s.beginStep .fetch s.beginStep.pc) ∧
    (let s := mappedCodeEnd
     s.beginStep.pendingInterrupt = none ∧ AtInstruction s.beginStep ∧
       ParcelAt s.beginStep s.beginStep.pc.toNat 0x4FFE ∧
       isLong (BitVec.ofNat 16 (s.beginStep.bytesAt 0x4FFE 2)) = true ∧
       Unmapped s.beginStep .fetch (s.beginStep.pcPlus 2)) := by
  refine ⟨⟨by decide +kernel, ⟨by decide +kernel, by decide +kernel, rfl⟩, ?_⟩, by decide +kernel,
    ⟨by decide +kernel, by decide +kernel, rfl⟩, ?_, by decide +kernel, ?_⟩
  · exact unmapped_invalid .sv39 (by decide +kernel)
  · exact parcel_of mappedCode_finds.2 (by decide +kernel) (by decide +kernel)
  · exact unmapped_invalid .sv39 (by decide +kernel)

/-- With S-mode and without it. -/
theorem witness_InterruptSelection :
    (lab.cfg.hasS = false → lab.mie &&& 0x222 = 0) ∧
    (let s : State := { State.resetWith cfgBare with mie := 0x888 }
     s.cfg.hasS = false ∧ s.mie &&& 0x222 = 0) := by decide +kernel

theorem witness_InterruptsAreTakenBeforeInstructions_m :
    let s := { lab with
      irq := { mei := true, mti := false, msi := false, sei := false }, mie := 0x800
      mstatus := { lab.mstatus with mie := true } }
    s.beginStep.pendingInterrupt = some 11 ∧ AtInstruction s.beginStep ∧ s.priv = .m :=
  ⟨by decide +kernel, ⟨by decide +kernel, by decide +kernel, rfl⟩, rfl⟩

theorem witness_InterruptsAreTakenBeforeInstructions_s :
    let s := { labU with mie := 0x2, ssip := true }
    s.beginStep.pendingInterrupt = some 1 ∧ AtInstruction s.beginStep ∧
      (s.cfg.hasS = true ∧ s.priv ≠ .m ∧ s.mideleg.getLsbD 1 = true) :=
  ⟨by decide +kernel, ⟨by decide +kernel, by decide +kernel, rfl⟩, by decide +kernel⟩

theorem witness_ResetMeetsInvariant : cfg32.valid = true ∧ cfgBare.valid = true := by decide

theorem lab_inv : lab.Inv where
  config := by decide +kernel
  memory := by decide +kernel
  betweenSteps := rfl
  registers := by unfold State.fits; decide +kernel
  single := by intro h; exact absurd h (by decide)
  pcFits := by unfold State.fits; decide +kernel
  pcAligned := by decide +kernel
  mode := rfl
  mpp := rfl
  noS := by decide +kernel
  noU := by decide +kernel
  noF := by decide +kernel
  mtvec := by unfold State.fits; decide +kernel
  stvec := by unfold State.fits; decide +kernel
  mepc := by unfold State.fits; decide +kernel
  sepc := by unfold State.fits; decide +kernel
  delegation := by decide +kernel
  enables := by decide +kernel
  satpMode := by unfold State.fits; decide +kernel
  words := by unfold State.fits; decide +kernel
  reservation := by intro r h; cases h

theorem witness_EveryStepKeepsInvariant : lab.Inv ∧ ∃ t, step lab = .next t ∧ (t.priv == .m) = true :=
  ⟨lab_inv, next_of (by decide +kernel)⟩

theorem witness_RegisterZeroIsHardwired : (31 : Reg) ≠ 0 ∧ (1 : Reg) ≠ 0 ∧ (0 : Reg) ≠ 31 := by decide

/-- x5 = 0x3000 and x7 = -1: each condition and its opposite, at both ends of the offset's range. -/
theorem witness_BranchAndJumpResults_branches :
    (lab.ux 5 = lab.ux 5 ∧ ¬ lab.ux 5 = lab.ux 7) ∧ (lab.ux 5 ≠ lab.ux 7 ∧ ¬ lab.ux 5 ≠ lab.ux 5) ∧
    (lab.sx 7 < lab.sx 5 ∧ ¬ lab.sx 5 < lab.sx 7) ∧ (lab.sx 7 ≤ lab.sx 5 ∧ ¬ lab.sx 5 ≤ lab.sx 7) ∧
    (lab.ux 5 < lab.ux 7 ∧ ¬ lab.ux 7 < lab.ux 5) ∧ (lab.ux 5 ≤ lab.ux 7 ∧ ¬ lab.ux 7 ≤ lab.ux 5) ∧
    lab.wrap (lab.pc.toNat + 2 * (0x7FF#12).toInt) % lab.cfg.ialignBytes = 0 ∧
    lab.wrap (lab.pc.toNat + 2 * (0x800#12).toInt) % lab.cfg.ialignBytes = 0 := by decide +kernel

theorem witness_BranchAndJumpResults_jumps :
    lab.wrap (lab.pc.toNat + 2 * (0x7FFFF#20).toInt) % lab.cfg.ialignBytes = 0 ∧
    labNoC.wrap (labNoC.pc.toNat + 2 * (0x80000#20).toInt) % labNoC.cfg.ialignBytes = 0 ∧
    lab.wrap (lab.dataAddress 7 (0x7FF#12).toInt / 2 * 2 : Nat) % lab.cfg.ialignBytes = 0 ∧
    labNoC.wrap (labNoC.dataAddress 5 (0x7FE#12).toInt / 2 * 2 : Nat) % labNoC.cfg.ialignBytes = 0 := by
  decide +kernel

theorem witness_MisalignedTargetsTrap :
    AtInstruction labNoC ∧
    labNoC.wrap (labNoC.pc.toNat + 2 * (0x7FFFF#20).toInt) % labNoC.cfg.ialignBytes ≠ 0 ∧
    labNoC.dataAddress 5 (1#12).toInt / 2 * 2 % labNoC.cfg.ialignBytes ≠ 0 ∧
    labNoC.wrap (labNoC.pc.toNat + 2 * (0x7FF#12).toInt) % labNoC.cfg.ialignBytes ≠ 0 ∧
    labNoC.ux 5 = labNoC.ux 5 ∧ labNoC.ux 0 ≠ labNoC.ux 5 ∧ labNoC.sx 0 < labNoC.sx 5 ∧
    labNoC.ux 0 < labNoC.ux 5 := ⟨labNoC_at, by decide +kernel⟩

/-- Aligned accesses that need nothing but the attributes of main memory. -/
theorem lab_reaches (s : State) (op : MemOp) (a n : Nat) (hp : plain s op.access = true) (ha : a % n = 0)
    (h : (List.range n).all (fun k => (s.cfg.regionAt (a + k)).any fun r => op.allowed r && !r.io) = true) :
    Reaches s op a n a := reaches_of (found_plain hp) ha h

/-- The last bytes of main memory, and the last ones of a page in its frame. -/
theorem witness_LoadResults :
    Reaches lab .load (lab.dataAddress 6 (-1#12).toInt) 1 0x3FFF ∧
    Reaches lab .load (lab.dataAddress 6 (-2#12).toInt) 2 0x3FFE ∧
    Reaches lab .load (lab.dataAddress 6 (-4#12).toInt) 4 0x3FFC ∧
    Reaches lab .load (lab.dataAddress 6 (-8#12).toInt) 8 0x3FF8 ∧
    Reaches (mapped 0xCF) .load ((mapped 0xCF).dataAddress 0 (0x7F8#12).toInt) 8 0x47F8 := by
  refine ⟨?_, ?_, ?_, ?_, reaches_of (found_mapped .sv39 0 0x3000 0x10CF (by decide +kernel)
    (by decide +kernel) (by decide +kernel)) (by decide +kernel) (by decide +kernel)⟩ <;>
    exact lab_reaches _ _ _ _ (by decide +kernel) (by decide +kernel) (by decide +kernel)

theorem witness_StoreResults :
    Reaches lab .store (lab.dataAddress 6 (-1#12).toInt) 1 0x3FFF ∧
    Reaches lab .store (lab.dataAddress 6 (-2#12).toInt) 2 0x3FFE ∧
    Reaches lab .store (lab.dataAddress 6 (-4#12).toInt) 4 0x3FFC ∧
    Reaches lab .store (lab.dataAddress 6 (-8#12).toInt) 8 0x3FF8 ∧
    Reaches (mapped 0xCF) .store ((mapped 0xCF).dataAddress 0 (0x7F8#12).toInt) 8 0x47F8 := by
  refine ⟨?_, ?_, ?_, ?_, reaches_of (found_mapped .sv39 0 0x3000 0x10CF (by decide +kernel)
    (by decide +kernel) (by decide +kernel)) (by decide +kernel) (by decide +kernel)⟩ <;>
    exact lab_reaches _ _ _ _ (by decide +kernel) (by decide +kernel) (by decide +kernel)

/-- Misaligned by one and by half the size, in each kind of access. -/
theorem witness_DataAccessesTrap_misaligned :
    AtInstruction lab ∧ lab.cfg.misalignedData = .trap ∧ lab.mstatus.fs ≠ 0 ∧
    (∀ d ∈ [accessOf (.lhu 1 6 (-1)), accessOf (.fld 1 6 (-4)), accessOf (.cSw 1 0 1), accessOf (.lrW 1 7 0 0),
      accessOf (.scD 1 2 7 0 0), accessOf (.amomaxuD 1 2 7 0 0)],
      d.any (fun d => (lab.setX 8 2).accessAddress d % d.size != 0) = true) :=
  ⟨lab_at, by decide +kernel⟩

/-- The first byte past main memory lacks W and atomic; nothing is above 0x6000; and a walk that begins above the
last region. -/
theorem witness_DataAccessesTrap_forbidden :
    AtInstruction lab ∧ accessOf (.lb 1 5 0) = some ⟨.load, 5, 0, 1⟩ ∧
    Forbidden (lab.setX 5 0x6000) .load ((lab.setX 5 0x6000).dataAddress 5 0) 1 ∧
    Forbidden (lab.setX 5 0x6000) .load ((lab.setX 5 0x6000).dataAddress 5 0) 8 ∧
    Forbidden lab .store (lab.dataAddress 6 0) 1 ∧ Forbidden lab .store (lab.dataAddress 6 0) 8 ∧
    Forbidden lab .lr (lab.dataAddress 6 0) 4 ∧ Forbidden lab .sc (lab.dataAddress 6 0) 8 ∧
    Forbidden lab .amo (lab.dataAddress 6 0) 4 ∧
    (let s := pagedBy { cfgMap with sv39 := true } 0x8000000000000006 []
     Forbidden s .load (s.dataAddress 0 0) 4) := by
  refine ⟨lab_at, by decide, ?_, ?_, ?_, ?_, ?_, ?_, ?_, ?w⟩
  case w =>
    obtain ⟨hon, hv, hw⟩ := find_some (s := pagedBy { cfgMap with sv39 := true } 0x8000000000000006 [])
      (acc := .load) (sch := .sv39) (v := 0) (r := .unreadable) (by decide +kernel)
    exact ⟨by decide +kernel, .inr ⟨.sv39, hon, hv, hw⟩⟩
  all_goals exact forbidden_of 0 (by decide +kernel) (by decide +kernel) (by decide +kernel) (by decide +kernel)

/-- The page after the mapped one, and a page that may not be written. -/
theorem witness_DataAccessesTrap_page :
    (let s := (mapped 0xCF).setX 5 0x1000
     AtInstruction s ∧ Unmapped s .load (BitVec.ofNat 64 (s.accessAddress ⟨.load, 5, 0, 8⟩))) ∧
    (let s := mapped 0xCB
     AtInstruction s ∧ Unmapped s .store (BitVec.ofNat 64 (s.accessAddress ⟨.amo, 0, 0, 8⟩))) := by
  refine ⟨⟨⟨by decide +kernel, by decide +kernel, rfl⟩, unmapped_invalid .sv39 (by decide +kernel)⟩,
    ⟨by decide +kernel, by decide +kernel, rfl⟩, ?_⟩
  obtain ⟨hon, hv, hw⟩ := find_some (s := mapped 0xCB) (acc := .store) (sch := .sv39)
    (v := BitVec.ofNat 64 ((mapped 0xCB).accessAddress ⟨.amo, 0, 0, 8⟩)) (r := .leaf 0 0x3000 0x10CB)
    (by decide +kernel)
  refine ⟨.sv39, hon, .inr (.inr ⟨hv, 0, 0x3000, 0x10CB, hw, .inl fun h => ?_⟩)⟩
  exact absurd ((leafMaps_iff _ _ _ 0 _ _).2 h) (by decide +kernel)

/-- Misaligned accesses byte by byte. -/
def cfgBytewise : Config := { cfgMap with misalignedData := .bytewise }

/-- Each form's access at 2^64 - 1, which goes on at address 0. -/
theorem witness_BytewiseMisalignedAccesses :
    let s := start { Config.default with misalignedData := .bytewise }
      [.x 2 0xFFFFFFFFFFFFFFFF, .x 8 0xFFFFFFFFFFFFFFFF, .fs 1]
    let a := s.dataAddress 8 (0#12).toInt
    s.cfg.misalignedData = .bytewise ∧ s.mstatus.fs ≠ 0 ∧ s.cfg.extD = true ∧
      (a % 2 ≠ 0 ∧ a % 4 ≠ 0 ∧ a % 8 ≠ 0) ∧
      (s.dataAddress (CReg.reg 0) (4 * (0#5).toNat) = a ∧ s.dataAddress (CReg.reg 0) (8 * (0#5).toNat) = a) ∧
      (s.dataAddress 2 (4 * (0#6).toNat) = a ∧ s.dataAddress 2 (8 * (0#6).toNat) = a) ∧
      (∀ k, k < 8 → Reaches s .load ((a + k) % s.modulus) 1 ((a + k) % s.modulus)) ∧
      ∀ k, k < 8 → Reaches s .store ((a + k) % s.modulus) 1 ((a + k) % s.modulus) := by
  refine ⟨rfl, by decide +kernel, rfl, by decide +kernel, by decide +kernel, by decide +kernel,
    fun k hk => ?_, fun k hk => ?_⟩ <;>
  · refine lab_reaches _ _ _ _ (by decide +kernel) (Nat.mod_one _) ?_
    interval_cases k <;> decide +kernel

/-- A store across the end of main memory: its first byte is allowed and its second is not. -/
theorem witness_BytewiseMisalignedAccesses_fails :
    let s := start cfgBytewise [.x 6 0x3FFF]
    AtInstruction s ∧ accessOf (.sw 1 6 0) = some ⟨.store, 6, 0, 4⟩ ∧
      s.accessAddress ⟨.store, 6, 0, 4⟩ % 4 ≠ 0 ∧ (∀ m, m < 1 → Reaches s .store (0x3FFF + m) 1 (0x3FFF + m)) ∧
      Forbidden s .store ((s.accessAddress ⟨.store, 6, 0, 4⟩ + 1) % s.modulus) 1 := by
  refine ⟨⟨by decide +kernel, by decide +kernel, rfl⟩, by decide, by decide +kernel, fun m hm => ?_, ?_⟩
  · obtain rfl : m = 0 := by omega
    exact lab_reaches _ _ _ _ (by decide +kernel) (Nat.mod_one _) (by decide +kernel)
  · exact forbidden_of 0 (by decide +kernel) (Nat.mod_one _) (by decide) (by decide +kernel)

/-- A load and a store across the end of the mapped page: the first byte is found in its frame, the second is in a page
that is not mapped. -/
theorem witness_BytewiseMisalignedAccesses_page :
    let s := pagedBy { Config.default with sv39 := true, misalignedData := .bytewise } 0x8000000000000001
      [.byte 0x1000 0x01, .byte 0x1001 0x08, .byte 0x2000 0x01, .byte 0x2001 0x0C, .byte 0x3000 0xCF,
        .byte 0x3001 0x10, .x 6 0xFFF, .fs 1]
    s.cfg.misalignedData = .bytewise ∧ s.mstatus.fs ≠ 0 ∧ AtInstruction s ∧
    ∀ d ∈ [(⟨.load, 6, 0, 8⟩ : DataAccess), ⟨.store, 6, 0, 4⟩], accessOf (.fld 1 6 0) = some ⟨.load, 6, 0, 8⟩ ∧
      accessOf (.sw 1 6 0) = some ⟨.store, 6, 0, 4⟩ ∧ s.accessAddress d % d.size ≠ 0 ∧
      (∀ m, m < 1 → Reaches s d.op ((s.accessAddress d + m) % s.modulus) 1 (0x4FFF + m)) ∧
      Unmapped s d.op.access (BitVec.ofNat 64 ((s.accessAddress d + 1) % s.modulus)) := by
  refine ⟨rfl, by decide +kernel, ⟨by decide +kernel, by decide +kernel, rfl⟩, fun d hd => ?_⟩
  simp only [List.mem_cons, List.not_mem_nil, or_false] at hd
  obtain rfl | rfl := hd <;>
    refine ⟨by decide, by decide, by decide +kernel, fun m hm => ?_, unmapped_invalid .sv39 (by decide +kernel)⟩ <;>
    obtain rfl : m = 0 := by omega
  all_goals exact reaches_of (found_mapped .sv39 0 0x3000 0x10CF (by decide +kernel) (by decide +kernel)
    (by decide +kernel)) (Nat.mod_one _) (by decide +kernel)

/-- Every kind of access at the first `io` byte, an `sc` with a reservation and without. -/
theorem witness_IoAccessesAreRefused :
    let s := lab.setX 6 0x5000
    (∀ op ∈ [MemOp.load, .store, .lr, .sc, .amo], ∀ n ∈ [1, 2, 4, 8], TouchesIo s op 0x5000 n 0x5000 0x5000) ∧
    accessOf (.amoaddW 1 2 6 0 0) = some ⟨.amo, 6, 0, 4⟩ ∧ s.accessAddress ⟨.amo, 6, 0, 4⟩ = 0x5000 ∧
    s.mstatus.fs ≠ 0 ∧ s.ux 6 = 0x5000 ∧ s.resv ≠ some { addr := 0x5000, size := 4 } ∧
    (let t : State := { s with resv := some { addr := 0x5000, size := 4 }
                               cfg := { cfgMap with scSpuriousFail := false } }
     TouchesIo t .sc (t.ux 6) 4 0x5000 0x5000 ∧ t.cfg.scSpuriousFail = false) := by
  refine ⟨fun op hop n hn => ?_, by decide, by decide +kernel, by decide +kernel, by decide +kernel,
    by decide +kernel, io_of (by decide +kernel) (by decide +kernel) (by decide +kernel) (by decide)
      (by decide +kernel), rfl⟩
  simp only [List.mem_cons, List.not_mem_nil, or_false] at hop hn
  obtain rfl | rfl | rfl | rfl | rfl := hop <;> obtain rfl | rfl | rfl | rfl := hn <;>
    exact io_of (by decide +kernel) (by decide +kernel) (by decide +kernel) (by decide) (by decide +kernel)

theorem witness_AmoWordResults :
    Reaches (lab.setX 6 0x3FFC) .amo ((lab.setX 6 0x3FFC).ux 6) 4 0x3FFC :=
  lab_reaches _ _ _ _ (by decide +kernel) (by decide +kernel) (by decide +kernel)

theorem witness_AmoDoublewordResults :
    lab.cfg.xlen = .rv64 ∧ Reaches (lab.setX 6 0x3FF8) .amo ((lab.setX 6 0x3FF8).ux 6) 8 0x3FF8 :=
  ⟨rfl, lab_reaches _ _ _ _ (by decide +kernel) (by decide +kernel) (by decide +kernel)⟩

theorem witness_LoadReservedStoreConditionalResults :
    Reaches lab .lr (lab.ux 5) 4 0x3000 ∧ Reaches lab .lr (lab.ux 5) 8 0x3000 ∧
    Reaches lab .sc (lab.ux 5) 4 0x3000 ∧ Reaches lab .sc (lab.ux 5) 8 0x3000 ∧
    lab.resv ≠ some { addr := 0x3000, size := 4 } ∧
    (let s : State := { lab with resv := some { addr := 0x3000, size := 8 }
                                 cfg := { cfgMap with scSpuriousFail := false } }
     s.resv = some { addr := 0x3000, size := 8 } ∧ s.resv ≠ some { addr := 0x3000, size := 4 } ∧
     s.cfg.scSpuriousFail = false) := by
  refine ⟨?_, ?_, ?_, ?_, by decide +kernel, by decide +kernel⟩ <;>
    exact lab_reaches _ _ _ _ (by decide +kernel) (by decide +kernel) (by decide +kernel)

/-- An `sc` with no reservation on an `io` byte writes 1 and touches nothing (R196 steps 3 to 5); one with the
reservation would write there. -/
theorem test_sc_fails_on_io :
    runs { cfgMap with scSpuriousFail := false } [.x 5 0x5000, .x 6 9, .pc 0x1000] 0x1862A3AF
      [.x 7 1, .resv none, .byte 0x5000 0, .pc 0x1004] = true ∧
    (match exec (.scW 7 6 5 0 0) (start { cfgMap with scSpuriousFail := false }
        [.x 5 0x5000, .resv (some { addr := 0x5000, size := 4 })]) with
     | .refused (.ioAccess a) => a == 0x5000
     | _ => false) = true := by
  decide +kernel

/-- Without S-mode only codes 3, 7 and 11 exist in `mip` (R45, R396). -/
theorem test_mip_without_s :
    (let s : State := { State.resetWith { Config.default with modes := .mu } with
        irq := { mei := true, mti := true, msi := true, sei := true }, seipSw := true }
     s.csrRead .mip = 0x888) ∧
    { lab with irq := { mei := false, mti := false, msi := false, sei := true } }.csrRead .mip = 0x200 := by
  decide +kernel

/-- Two stores to a PTE with a fence for its page and address space between them: a walk there may still see the
first value, and not the one before the fence (R71, R175). -/
theorem test_narrow_fence_keeps_its_order :
    let s := paged []
    let stored := fun (s : State) v => { s with mem := s.mem.writeAll (bytesFrom 0x3000 8) v }
    let hides := fun (f : PartialFence) (_ : Nat) => f.covers s.cfg 0x5000 0 false
    let one := (stored s 0x11).fenceVma (some 0x5008) none
    (stored one 0x22).mem.oldPte hides (bytesFrom 0x3000 8) = [0x11] ∧
    (stored (stored s 0x11) 0x22).mem.oldPte hides (bytesFrom 0x3000 8) = [0x11, 0] ∧
    (stored ((stored s 0x11).fenceVma (some 0x6000) none) 0x22).mem.oldPte hides (bytesFrom 0x3000 8) =
      [0x11, 0] := by
  decide +kernel

/-- The same of writes of `satp`, with the fence for the address space of the value between them. -/
theorem test_narrow_fence_covers_satp :
    let s := { paged [] with cfg := { Config.default with sv39 := true, asidLen := 16 } }
    let one := s.writeSatp 0x8000700000000002
    ((one.fenceVma none (some 7)).writeSatp 0x8000900000000003).oldSatp 0x5000 = [0x8000700000000002] ∧
    ((one.fenceVma (some 0x5FFF) none).writeSatp 0x8000900000000003).oldSatp 0x5000 = [0x8000700000000002] ∧
    ((one.fenceVma none (some 9)).writeSatp 0x8000900000000003).oldSatp 0x5000 =
      [0x8000700000000002, 0x8000000000000001] := by
  decide +kernel

/-- Stores to a parcel: a fetch may see each value since the last `fence.i` (R79). -/
theorem test_old_code :
    let m := (State.reset.mem.writeAll [0x10, 0x11] 0x1234).writeAll [0x11] 0x56
    m.oldCode [0x10, 0x11] = [0x1234, 0] ∧ (m.fenceCode.writeAll [0x10] 0x99).oldCode [0x10, 0x11] = [0x5634] := by
  decide +kernel

theorem witness_OnlyStoringInstructionsWriteMemory :
    (Instr.lw 1 5 0).storesMemory = false ∧ lab.cfg.pteAdUpdate = .fault ∧ lab.beforeFetch = none ∧
      ∃ t, exec (.lw 1 5 0) lab = .next t ∧ (t.pc == 0x1004) = true :=
  ⟨rfl, rfl, rfl, next_of (by decide +kernel)⟩

/-- Each scheme, at both ends of the addresses it translates and just outside them (R70 step 0). -/
theorem witness_PageTableWalks_canonical :
    PagingOn (paged []) .load .sv39 ∧ Scheme.sv39.holds 0 ∧ Scheme.sv39.holds 0x3FFFFFFFFF ∧
      Scheme.sv39.holds 0xFFFFFFC000000000 ∧ Scheme.sv39.holds 0xFFFFFFFFFFFFFFFF ∧
      ¬ Scheme.sv39.holds 0x4000000000 ∧ ¬ Scheme.sv39.holds 0xFFFFFFBFFFFFFFFF ∧
      ¬ Scheme.sv48.holds 0x800000000000 ∧ Scheme.sv32.holds 0xFFFFFFFF := by
  simp only [← Scheme.canonical_iff]
  exact ⟨on_of (by decide +kernel), by decide⟩

/-- An invalid entry at each level, a pointer at level 0, and a table outside readable memory. -/
theorem witness_PageTableWalks_stops :
    (∀ s ∈ [paged [], paged [.byte 0x1000 0x01, .byte 0x1001 0x08], mapped 0xCE, mapped 0x05, mapped 0x01],
      PagingOn s .load .sv39 ∧ ReachesInvalid s .sv39 0 Scheme.sv39.top (s.rootTable .sv39)) ∧
    (let s := pagedBy { cfgMap with sv39 := true } 0x8000000000000006 []
     PagingOn s .load .sv39 ∧ ReachesUnreadable s .sv39 0 Scheme.sv39.top (s.rootTable .sv39)) := by
  have h : ∀ s ∈ [paged [], paged [.byte 0x1000 0x01, .byte 0x1001 0x08], mapped 0xCE, mapped 0x05, mapped 0x01],
      find s .load .sv39 0 = some .invalid := by decide +kernel
  refine ⟨fun s hs => ?_, ?_⟩
  · obtain ⟨hon, -, hw⟩ := find_some (h s hs)
    exact ⟨hon, hw⟩
  · obtain ⟨hon, -, hw⟩ := find_some (s := pagedBy { cfgMap with sv39 := true } 0x8000000000000006 [])
      (acc := .load) (sch := .sv39) (v := 0) (r := .unreadable) (by decide +kernel)
    exact ⟨hon, hw⟩

/-- A leaf that a store may use, one whose page U-mode may use, one that is not writable, and ones with A or D
clear. -/
theorem witness_PageTableWalks_leaf :
    (∀ flags ∈ [0xCF, 0xDF, 0xCB, 0x8F, 0x4F],
      PagingOn (mapped flags) .store .sv39 ∧ ReachesLeaf (mapped flags) .sv39 0 Scheme.sv39.top
        ((mapped flags).rootTable .sv39) 0 0x3000 (0x1000 + flags)) ∧
    (LeafMaps (mapped 0xCF) .store .sv39 0 0x10CF ∧ LeafUsed .store 0x10CF) ∧
    ¬ LeafMaps (mapped 0xDF) .store .sv39 0 0x10DF ∧ ¬ LeafMaps (mapped 0xCB) .store .sv39 0 0x10CB ∧
    (LeafMaps (mapped 0x8F) .load .sv39 0 0x108F ∧ ¬ LeafUsed .load 0x108F) ∧
    (LeafMaps (mapped 0x4F) .store .sv39 0 0x104F ∧ ¬ LeafUsed .store 0x104F ∧ LeafUsed .load 0x104F) ∧
    (mapped 0x4F).cfg.pteAdUpdate = .fault := by
  have h : ∀ flags ∈ [0xCF, 0xDF, 0xCB, 0x8F, 0x4F],
      find (mapped flags) .store .sv39 0 = some (.leaf 0 0x3000 (0x1000 + flags)) := by decide +kernel
  simp only [← leafMaps_iff _ _ _ 0, ← leafUsed_iff]
  refine ⟨fun f hf => ?_, by decide +kernel⟩
  obtain ⟨hon, -, hw⟩ := find_some (h f hf)
  exact ⟨hon, hw⟩

/-- A gigapage of Sv39 at its last bytes, a megapage of Sv32 and one of Sv48's largest; and a superpage that is not
aligned. -/
theorem witness_PageTableWalks_superpage :
    (let s := paged [.byte 0x1000 0xCF, .byte 0x1003 0x10]
     Maps s .store 0x3FFFFFF8 0x7FFFFFF8) ∧
    (let s := pagedBy { cfg32 with sv32 := true } 0x80000001 [.byte 0x1000 0xCF, .byte 0x1002 0x10]
     Maps s .load 0x3FFFFC 0x7FFFFC) ∧
    (let s := pagedBy { Config.default with sv39 := true, sv48 := true } 0x9000000000000001 [.byte 0x1000 0xCF]
     Maps s .fetch 0x7FFFFFFFFE 0x7FFFFFFFFE) ∧
    ¬ LeafMaps (paged [.byte 0x1000 0xCF, .byte 0x1001 0x04]) .store .sv39 2 0x4CF := by
  have key : ∀ {s : State} {acc : Access} {v : Word} (sch : Scheme) (j e pte : Nat),
      find s acc sch v = some (.leaf j e pte) → mapsOk s acc sch v j pte = true →
      needsAdUpdate acc pte = false → Maps s acc v (sch.under j pte v) := by
    intro s acc v sch j e pte h hm hu
    obtain ⟨hon, hv, hw⟩ := find_some h
    exact ⟨sch, j, e, pte, hon, hv, hw, (leafMaps_iff _ _ _ _ _ _).1 hm, (leafUsed_iff _ _).1 hu, rfl⟩
  refine ⟨?_, ?_, ?_, fun h => absurd ((leafMaps_iff _ _ _ 0 _ _).2 h) (by decide +kernel)⟩
  · exact key .sv39 2 0x1000 0x100000CF (by decide +kernel) (by decide +kernel) (by decide)
  · exact key .sv32 1 0x1000 0x1000CF (by decide +kernel) (by decide +kernel) (by decide)
  · exact key .sv48 3 0x1000 0xCF (by decide +kernel) (by decide +kernel) (by decide)

/-- Hardware updates of A and D, of an entry in writable memory and of one in read-only memory. -/
theorem witness_PageTableWalks_update :
    (let s := pagedBy { Config.default with sv39 := true, pteAdUpdate := .hardware } 0x8000000000000001
       [.byte 0x1000 0x0F]
     PagingOn s .store .sv39 ∧ ReachesLeaf s .sv39 0 Scheme.sv39.top (s.rootTable .sv39) 2 0x1000 0x0F ∧
       LeafMaps s .store .sv39 2 0x0F ∧ ¬ LeafUsed .store 0x0F ∧ PteIn s (·.writable) 0x1000 8) ∧
    (let s := pagedBy { cfgMap with sv39 := true, pteAdUpdate := .hardware } 0x8000000000000004
       [.byte 0x4000 0x0F]
     PagingOn s .fetch .sv39 ∧ ReachesLeaf s .sv39 0 Scheme.sv39.top (s.rootTable .sv39) 2 0x4000 0x0F ∧
       LeafMaps s .fetch .sv39 2 0x0F ∧ ¬ LeafUsed .fetch 0x0F ∧ ¬ PteIn s (·.writable) 0x4000 8) := by
  simp only [← leafMaps_iff _ _ _ 0, ← leafUsed_iff, ← pteIn_iff]
  constructor
  · obtain ⟨hon, -, hw⟩ := find_some (s := pagedBy { Config.default with
      sv39 := true, pteAdUpdate := .hardware } 0x8000000000000001 [.byte 0x1000 0x0F]) (acc := .store)
      (sch := .sv39) (v := 0) (r := .leaf 2 0x1000 0x0F) (by decide +kernel)
    exact ⟨hon, hw, by decide +kernel⟩
  · obtain ⟨hon, -, hw⟩ := find_some (s := pagedBy { cfgMap with
      sv39 := true, pteAdUpdate := .hardware } 0x8000000000000004 [.byte 0x4000 0x0F]) (acc := .fetch)
      (sch := .sv39) (v := 0) (r := .leaf 2 0x4000 0x0F) (by decide +kernel)
    exact ⟨hon, hw, by decide +kernel⟩

theorem witness_CsrInstructionsComplete :
    lab.csrAccess 0x340 true = some .mscratch ∧ lab.csrAccess 0xF14 false = some .mhartid ∧
    labU.csrAccess 0x003 true = some .fcsr ∧ lab.csrAccess 0xB02 true = some .minstret ∧
    (31 : Reg) ≠ 0 ∧ (31 : BitVec 5) ≠ 0 := by decide +kernel

/-- One state for each check, at an end of its range of addresses, and an access that passes them all. -/
theorem witness_CsrAccessesAreChecked :
    (AtInstruction labU ∧ AtInstruction labS ∧ AtInstruction lab) ∧
    (labU.priv = .u ∧ 0x100 / 256 % 4 = 1) ∧ (labS.priv = .s ∧ 0x3FF / 256 % 4 = 3 ∧ 0x200 / 256 % 4 = 2) ∧
    csrAt lab.cfg 0x7C0 = none ∧ csrAt lab.cfg 0xC80 = none ∧
    ({ lab with mstatus := { lab.mstatus with fs := 0 } } : State).mstatus.fs = 0 ∧
    (labS.priv = .s ∧ labS.mstatus.tvm = true) ∧
    (0xC00 / 32 = 0x60 ∧ labS.priv ≠ .m ∧ labS.mcounteren.getLsbD (0xC00 % 32) = false) ∧
    (0xC1F / 32 = 0x60 ∧ labU.priv = .u ∧ labU.cfg.hasS = true ∧
      labU.scounteren.getLsbD (0xC1F % 32) = false) ∧
    (0xC00 / 1024 = 3 ∧ 0xFFF / 1024 = 3 ∧ (31 : Reg) ≠ 0 ∧ (31 : BitVec 5) ≠ 0) ∧
    (lab.priv = .m ∧ 0x300 / 256 % 4 = 3 ∧ csrAt lab.cfg 0x300 = some .mstatus ∧ 0x300 ∉ [1, 2, 3] ∧
      0x300 ≠ 0x180 ∧ 0x300 / 32 ≠ 0x60 ∧ 0x300 / 32 ≠ 0x64 ∧ 0x300 / 1024 ≠ 3) :=
  ⟨⟨labU_at, labS_at, lab_at⟩, by decide +kernel⟩

/-- A legal value of `satp` and one with a mode that is not there, in each width. -/
theorem witness_TrapAndTranslationCsrWrites :
    lab.priv = .m ∧ lab.cfg.hasS = true ∧
    (let s := start { Config.default with sv39 := true } [.x 5 0x8000000000000001]
     s.priv = .m ∧ s.cfg.xlen = .rv64 ∧ s.ux 5 / 2 ^ 60 = 8 ∧ s.cfg.sv39 = true) ∧
    (lab.cfg.xlen = .rv64 ∧ lab.ux 7 / 2 ^ 60 = 15) ∧
    (let s := start { cfg32 with sv32 := true } [.x 5 0xFFFFFFFF]
     s.cfg.xlen = .rv32 ∧ s.ux 5 / 2 ^ 31 = 1 ∧ s.cfg.sv32 = true) ∧
    (let s := start { cfg32 with sv32 := false } [.x 5 0xFFFFFFFF]
     s.cfg.xlen = .rv32 ∧ ¬ (s.ux 5 / 2 ^ 31 = 0 ∨ s.cfg.sv32 = true)) := by decide +kernel

theorem witness_FloatStatusRegisterViews : lab.cfg.extF = true ∧ lab.mstatus.fs ≠ 0 := by decide +kernel

theorem witness_CountersEnablesAndHardwiredCsrs :
    lab.priv = .m ∧ lab.cfg.xlen = .rv64 ∧ lab.cfg.hasU = true ∧ lab.cfg.hasS = true ∧
    (start cfg32 []).priv = .m ∧ (start cfg32 []).cfg.xlen = .rv32 ∧ (3 : BitVec 12) < 32 ∧
    3 ≤ (31 : BitVec 12) := by decide +kernel

theorem witness_InterruptRegisterViews : lab.cfg.hasS = true ∧ (State.resetWith cfgBare).cfg.hasS = false := by
  decide +kernel

theorem witness_SstatusIsAWindow : lab.cfg.hasS = true ∧ lab.cfg.extF = true := by decide +kernel

theorem witness_TrapEntryInMode :
    (AtInstruction labU ∧ (15 : Nat) < 16 ∧ (0xFFFFFFFFFFFFFFFF#64).toNat < labU.modulus ∧
      labU.cfg.hasS = true ∧ labU.priv ≠ .m ∧ labU.medeleg.getLsbD 15 = true ∧
      labU.mideleg.getLsbD 9 = true) ∧
    (AtInstruction lab ∧ lab.priv = .m) := by
  refine ⟨⟨labU_at, by decide +kernel⟩, lab_at, rfl⟩

theorem witness_EnvironmentAndPrivilegedInstructionsTrap :
    AtInstruction lab ∧ (AtInstruction labU ∧ labU.priv = .u ∧ labU.cfg.hasS = true) ∧
    (AtInstruction labS ∧ labS.priv = .s ∧ labS.mstatus.tsr = true ∧ labS.mstatus.tvm = true ∧
      labS.mstatus.tw = true) :=
  ⟨lab_at, ⟨labU_at, by decide +kernel⟩, labS_at, by decide +kernel⟩

theorem witness_ReturnsRestoreTheMode :
    lab.priv = .m ∧
    ({ lab with priv := .s } : State).priv = .s ∧ ({ lab with priv := .s } : State).mstatus.tsr = false ∧
    (AtInstruction lab ∧ ¬ lab.goesToS Exc.breakpoint.code) ∧
    (AtInstruction labU ∧ labU.goesToS Exc.environmentCallFromUMode.code ∧ labU.mstatus.tsr = false) := by
  unfold State.goesToS
  exact ⟨rfl, rfl, by decide +kernel, ⟨lab_at, by decide +kernel⟩, labU_at, by decide +kernel⟩

theorem witness_FencesCompleteAndOrder :
    lab.priv = .m ∧
    (let s : State := { lab with priv := .s }
     s.priv = .s ∧ s.mstatus.tvm = false ∧ s.mstatus.tw = false) ∧
    (∃ t, exec (.sfenceVma 5 6) lab = .next t ∧
      (lab.ux 5 / 4096 == (0x3FFF#64).toNat / 4096 &&
        lab.ux 6 % 2 ^ lab.cfg.asidLen == satpAsid t.cfg t.satp) = true) ∧
    ∃ t, exec (.sfenceVma 0 0) lab = .next t ∧ (t.priv == .m) = true :=
  ⟨rfl, by decide +kernel, next_of (by decide +kernel), next_of (by decide +kernel)⟩

/-- U-mode with `add x7, x5, x6` next. -/
theorem witness_UserModeLeavesPrivilegedState :
    let s : State := { labAdd with priv := .u }
    s.priv = .u ∧ ∃ t, step s = .next t ∧ (t.priv == .u) = true :=
  ⟨rfl, next_of (by decide +kernel)⟩

theorem witness_ModeChangesOnlyByTrapsAndReturns :
    (∃ t, exec .mret lab = .next t ∧ (t.priv != lab.priv) = true) ∧
    (∃ t, exec .ecall labU = .next t ∧ (t.priv == .s) = true) ∧
    ∃ t, exec .sret { lab with priv := .s } = .next t ∧ (t.priv == .u) = true :=
  ⟨next_of (by decide +kernel), next_of (by decide +kernel), next_of (by decide +kernel)⟩

/-- A static mode, the last one, and the dynamic mode. -/
theorem fpReady : FpReady lab 0 .rne ∧ FpReady lab 4 .rmm ∧ FpReady { lab with frm := 3 } 7 .rup := by
  unfold FpReady
  decide +kernel

theorem witness_SingleArithmeticResults : FpReady lab 0 .rne ∧ FpReady { lab with frm := 3 } 7 .rup :=
  ⟨fpReady.1, fpReady.2.2⟩

theorem witness_DoubleArithmeticResults : lab.cfg.extD = true ∧ FpReady lab 4 .rmm :=
  ⟨by decide, fpReady.2.1⟩

theorem witness_ConversionsToFloat : FpReady lab 4 .rmm ∧ lab.cfg.extD = true :=
  ⟨fpReady.2.1, by decide⟩

theorem witness_ConversionsToInteger : FpReady lab 0 .rne := fpReady.1

theorem witness_SignInjectionMinMaxMoves : lab.mstatus.fs ≠ 0 ∧ lab.cfg.extD = true := by decide +kernel

theorem witness_CompareClassifyMovesToInteger : lab.mstatus.fs ≠ 0 := by decide +kernel

/-- The last bytes of main memory that each form's greatest offset reaches. -/
def labFar : State := (lab.setX 2 0x3E08).setX 8 0x3F00

theorem labFar_reaches : ∀ op, (op = MemOp.load ∨ op = .store) →
    Reaches labFar op (labFar.dataAddress 6 (-4#12).toInt) 4 0x3FFC ∧
    Reaches labFar op (labFar.dataAddress 6 (-8#12).toInt) 8 0x3FF8 ∧
    Reaches labFar op (labFar.dataAddress (CReg.reg 0) (4 * (31#5).toNat)) 4 0x3F7C ∧
    Reaches labFar op (labFar.dataAddress (CReg.reg 0) (8 * (31#5).toNat)) 8 0x3FF8 ∧
    Reaches labFar op (labFar.dataAddress 2 (4 * (62#6).toNat)) 4 0x3F00 ∧
    Reaches labFar op (labFar.dataAddress 2 (8 * (62#6).toNat)) 8 0x3FF8 := by
  rintro op (rfl | rfl) <;> refine ⟨?_, ?_, ?_, ?_, ?_, ?_⟩ <;>
    exact lab_reaches _ _ _ _ (by decide +kernel) (by decide +kernel) (by decide +kernel)

theorem witness_FloatLoadsAndStores :
    labFar.mstatus.fs ≠ 0 ∧ labFar.cfg.extD = true ∧
    Reaches labFar .load (labFar.dataAddress 6 (-8#12).toInt) 8 0x3FF8 ∧
    Reaches labFar .store (labFar.dataAddress (CReg.reg 0) (4 * (31#5).toNat)) 4 0x3F7C ∧
    Reaches labFar .store (labFar.dataAddress 2 (8 * (62#6).toNat)) 8 0x3FF8 :=
  ⟨by decide +kernel, by decide, (labFar_reaches _ (.inl rfl)).2.1, (labFar_reaches _ (.inr rfl)).2.2.1,
    (labFar_reaches _ (.inr rfl)).2.2.2.2.2⟩

theorem witness_FloatingPointOffAndReservedRoundingTrap :
    (let s : State := { lab with mstatus := { lab.mstatus with fs := 0 } }
     AtInstruction s ∧ s.mstatus.fs = 0 ∧ (Instr.cFld 0 0 0).usesFp = true ∧ (Instr.feqS 1 2 3).usesFp = true) ∧
    (AtInstruction lab ∧ (Instr.faddS 1 2 3 5).rm? = some 5 ∧ (Instr.fcvtLD 1 2 6).rm? = some 6) ∧
    (let s : State := { lab with frm := 5 }
     AtInstruction s ∧ (Instr.fsqrtD 1 2 7).rm? = some 7 ∧ 5 ≤ s.frm.toNat) :=
  ⟨⟨⟨by decide +kernel, by decide +kernel, rfl⟩, by decide +kernel⟩, ⟨lab_at, by decide⟩,
    ⟨by decide +kernel, by decide +kernel, rfl⟩, by decide⟩

theorem witness_SingleNumbersAreBoxed :
    lab.cfg.flen64 = true ∧ (State.resetWith cfgNoD).cfg.flen64 = false := by decide

theorem witness_RoundingFollowsTheDirection : (0 : Nat) < 1 := by decide

/-- The two zeros, the least and the greatest finite number, the infinities, a quiet and a signaling NaN. -/
theorem witness_ComparisonsFollowTheReals :
    (binary32.datum 0x80000000).extended = (binary32.datum 0).extended ∧
    (∃ y, (binary32.datum 0xFF7FFFFF).extended = some y) ∧ (∃ y, (binary32.datum 0x7F7FFFFF).extended = some y) ∧
    (binary64.datum 0xFFF0000000000000).extended = some ⊥ ∧ (binary32.datum 0x7FC00000).isNaN = true ∧
    (binary32.datum 0xFF800001).isNaN = true ∧ 0xFF800001 < 2 * binary32.signBit ∧
    0xFFF0000000000000 < 2 * binary64.signBit := by
  refine ⟨?_, ?_, ?_, ?_, by decide +kernel⟩
  · rw [show binary32.datum 0x80000000 = .zero true by decide +kernel,
      show binary32.datum 0 = .zero false by decide +kernel]; rfl
  · rw [show binary32.datum 0xFF7FFFFF = .fin true 0xFFFFFF 104 by decide +kernel]; exact ⟨_, rfl⟩
  · rw [show binary32.datum 0x7F7FFFFF = .fin false 0xFFFFFF 104 by decide +kernel]; exact ⟨_, rfl⟩
  · rw [show binary64.datum 0xFFF0000000000000 = .inf true by decide +kernel]; rfl

/-- A quotient's parts; 1, 1 + 1 and a divisor. -/
theorem witness_FiniteResultsAreExactValuesRounded :
    (0 < (1 : Nat) ∧ 0 < (3 : Nat)) ∧
    (binary32.datum 0x3F800000).value = some 1 ∧ (1 + 1 : ℚ) ≠ 0 ∧ (1 : ℚ) ≠ 0 ∧ (0 : ℚ) < 1 ∧
    0x3F800000 < 2 * binary32.signBit ∧
    (binary64.datum 0x3FF0000000000000).value = some 1 ∧ 0x3FF0000000000000 < 2 * binary64.signBit := by
  refine ⟨by decide, ?_, by norm_num, by norm_num, by norm_num, by decide +kernel, ?_, by decide +kernel⟩
  · rw [show binary32.datum 0x3F800000 = .fin false 0x800000 (-23) by decide +kernel]
    norm_num [Datum.value]
  · rw [show binary64.datum 0x3FF0000000000000 = .fin false 0x10000000000000 (-52) by decide +kernel]
    norm_num [Datum.value]

/-- Each special operand, and two numbers whose sum is 0. -/
theorem witness_ArithmeticSpecialCases :
    binary32.datum 0x7F800000 = .inf false ∧ binary32.datum 0x80000000 = .zero true ∧
    (binary32.datum 0x7F800001).isNaN = true ∧ (binary64.datum 0x7FF8000000000000).isNaN = true ∧
    (binary64.datum 0).value = some 0 ∧
    binary32.datum 0xBF800000 = .fin true 0x800000 (-23) ∧ binary32.datum 0x3F800000 = .fin false 0x800000 (-23) ∧
    (Datum.fin true 0x800000 (-23)).value = some (-1) ∧ (Datum.fin false 0x800000 (-23)).value = some 1 ∧
    (1 : ℚ) ≠ 0 ∧ (1 + -1 : ℚ) = 0 ∧ 0xBF800000 < 2 * binary32.signBit := by
  refine ⟨by decide +kernel, by decide +kernel, by decide +kernel, by decide +kernel, ?_, by decide +kernel,
    by decide +kernel, by norm_num [Datum.value], by norm_num [Datum.value], by norm_num, by norm_num,
    by decide +kernel⟩
  rw [show binary64.datum 0 = .zero false by decide +kernel]; rfl

/-- A NaN, an infinity and a number, and each integer type. -/
theorem witness_MinMaxClassifyAndToIntegerResults :
    (binary32.datum 0x7FC00000).isNaN = true ∧ (binary32.datum 0x80000000).isNaN = false ∧
    binary64.datum 0xFFF0000000000000 = .inf true ∧
    (binary32.datum 0x80000000).extended = (binary32.datum 0).extended ∧
    (binary64.datum 0).value = some 0 ∧ 0xFFF0000000000000 < 2 * binary64.signBit ∧
    (intLU, (0 : Int), (2 ^ 64 - 1 : Int)) ∈ [(intW, (-2 ^ 31 : Int), (2 ^ 31 - 1 : Int)), (intWU, 0, 2 ^ 32 - 1),
      (intL, -2 ^ 63, 2 ^ 63 - 1), (intLU, 0, 2 ^ 64 - 1)] := by
  refine ⟨by decide +kernel, by decide +kernel, by decide +kernel, ?_, ?_, by decide +kernel, by decide⟩
  · rw [show binary32.datum 0x80000000 = .zero true by decide +kernel,
      show binary32.datum 0 = .zero false by decide +kernel]; rfl
  · rw [show binary64.datum 0 = .zero false by decide +kernel]; rfl

theorem witness_CompressedLoadsAndStores :
    Reaches labFar .load (labFar.dataAddress (CReg.reg 0) (4 * (31#5).toNat)) 4 0x3F7C ∧
    Reaches labFar .load (labFar.dataAddress 2 (8 * (62#6).toNat)) 8 0x3FF8 ∧
    Reaches labFar .store (labFar.dataAddress (CReg.reg 0) (8 * (31#5).toNat)) 8 0x3FF8 ∧
    Reaches labFar .store (labFar.dataAddress 2 (4 * (62#6).toNat)) 4 0x3F00 :=
  ⟨(labFar_reaches _ (.inl rfl)).2.2.1, (labFar_reaches _ (.inl rfl)).2.2.2.2.2,
    (labFar_reaches _ (.inr rfl)).2.2.2.1, (labFar_reaches _ (.inr rfl)).2.2.2.2.1⟩

end Sys2Proof.Tests
end

section
/-! SUPPORT. What keeps the parts of `State.Inv`: alignment of addresses, the WARL sets of the CSRs, the page
offset of a translation, and the codes of traps. -/

namespace Sys2Proof

/-! ## Alignment (R24) -/

theorem Config.ialignBytes_dvd_four (c : Config) : c.ialignBytes ∣ 4 := by
  unfold Config.ialignBytes
  split <;> decide

theorem Xlen.four_dvd_two_pow (x : Xlen) : 4 ∣ 2 ^ x.bits := by cases x <;> decide

theorem Config.ialignBytes_dvd_two_pow (c : Config) : c.ialignBytes ∣ 2 ^ c.xlen.bits :=
  c.ialignBytes_dvd_four.trans c.xlen.four_dvd_two_pow

/-- A multiple of 4 is aligned in every configuration. -/
theorem Config.aligned_of_four (c : Config) {n : Nat} (h : n % 4 = 0) : n % c.ialignBytes = 0 :=
  Nat.mod_eq_zero_of_dvd (c.ialignBytes_dvd_four.trans (Nat.dvd_of_mod_eq_zero h))

/-- An even number is aligned where an instruction of 2 bytes is. -/
theorem Config.aligned_of_even (c : Config) {n : Nat} (hc : 2 % c.ialignBytes = 0) (h : n % 2 = 0) :
    n % c.ialignBytes = 0 :=
  Nat.mod_eq_zero_of_dvd ((Nat.dvd_of_mod_eq_zero hc).trans (Nat.dvd_of_mod_eq_zero h))

/-- Cutting an address to XLEN bits keeps its alignment. -/
theorem Config.norm_mod_ialign (c : Config) (v : Word) :
    (c.xlen.norm v).toNat % c.ialignBytes = v.toNat % c.ialignBytes := by
  rw [Xlen.norm_toNat, Nat.mod_mod_of_dvd _ c.ialignBytes_dvd_two_pow]

theorem Config.add_aligned (c : Config) (v w : Word) (hv : v.toNat % c.ialignBytes = 0)
    (hw : w.toNat % c.ialignBytes = 0) : (v + w).toNat % c.ialignBytes = 0 := by
  rw [BitVec.toNat_add, Nat.mod_mod_of_dvd _ (c.ialignBytes_dvd_four.trans (by decide)),
    Nat.add_mod, hv, hw, Nat.zero_add, Nat.zero_mod]

/-- The instructions of 2 bytes are the ones that need EXT_C. -/
theorem Instr.size_eq (i : Instr) :
    i.size = if i.need = .extC ∨ i.need = .extCF ∨ i.need = .extCD then 2 else 4 := by
  cases i <;> rfl

/-- The length of an instruction that exists is a multiple of IALIGN/8 (R81). -/
theorem Instr.size_aligned (i : Instr) (c : Config) (h : i.existsIn c = true) :
    i.size % c.ialignBytes = 0 := by
  have hn : i.need.met c = true := by
    unfold Instr.existsIn at h
    exact (Bool.and_eq_true_iff.1 h).1
  rw [Instr.size_eq]
  split
  · next hC =>
    have hc : c.extC = true := by
      rcases hC with e | e | e <;> rw [e] at hn <;> simp_all [Need.met]
    simp [Config.ialignBytes, hc]
  · exact c.aligned_of_four rfl

end Sys2Proof

namespace Sys2Proof.Machine

open Sys2Proof

/-- A branch or jump offset is even (R90, R92, R99). -/
theorem doubled_even {n : Nat} (imm : BitVec n) : ((imm ++ 0#1).signExtend 64).toNat % 2 = 0 := by
  have h : ((imm ++ 0#1).signExtend 64).getLsbD 0 = false := by
    rw [BitVec.getLsbD_signExtend, BitVec.getLsbD_append]
    simp
  rw [BitVec.getLsbD, Nat.testBit_zero, decide_eq_false_iff_not] at h
  omega

theorem clearBit0_even (v : Word) : (clearBit0 v).toNat % 2 = 0 := by
  unfold clearBit0
  rw [clearOne_toNat]
  omega

theorem clearBit0_le (v : Word) : (clearBit0 v).toNat ≤ v.toNat := by
  unfold clearBit0
  rw [clearOne_toNat]
  omega

theorem State.pcPlus_aligned (s : State) (o : Word) (hp : s.pc.toNat % s.cfg.ialignBytes = 0)
    (ho : o.toNat % s.cfg.ialignBytes = 0) : (s.pcPlus o).toNat % s.cfg.ialignBytes = 0 := by
  unfold State.pcPlus
  rw [Config.norm_mod_ialign]
  exact s.cfg.add_aligned _ _ hp ho

theorem State.addrPlus_lt (s : State) (r : Reg) (o : Word) : (s.addrPlus r o).toNat < s.modulus :=
  Xlen.norm_lt _ _

/-! ## Trap vectors, saved pcs and causes (R43, R48, R400) -/

theorem tvecMask_lt {s : State} {v : Word} (h : s.fits v) : s.fits (tvecMask v) := by
  unfold State.fits tvecMask
  rw [BitVec.toNat_and]
  exact lt_of_le_of_lt Nat.and_le_left h

theorem tvecMask_bit (v : Word) : (tvecMask v).getLsbD 1 = false := by
  simp [tvecMask]

theorem epcMask_lt (c : Config) (v : Word) : (epcMask c v).toNat < 2 ^ c.xlen.bits := Xlen.norm_lt _ _

theorem epcMask_aligned (c : Config) (v : Word) : (epcMask c v).toNat % c.ialignBytes = 0 := by
  unfold epcMask
  rw [Config.norm_mod_ialign]
  unfold Config.ialignBytes
  split
  · rw [clearOne_toNat]; omega
  · rw [clearTwo_toNat]; omega

theorem vectorTarget_aligned (s : State) (tvec : Word) (interrupt : Bool) (code : Nat) :
    (vectorTarget s.cfg.xlen tvec interrupt code).toNat % s.cfg.ialignBytes = 0 := by
  rw [vectorTarget_toNat]
  unfold State.handler
  rw [State.wrap_natCast, State.modulus, Nat.mod_mod_of_dvd _ s.cfg.ialignBytes_dvd_two_pow]
  apply s.cfg.aligned_of_four
  split <;> omega

theorem vectorTarget_lt (x : Xlen) (tvec : Word) (interrupt : Bool) (code : Nat) :
    (vectorTarget x tvec interrupt code).toNat < 2 ^ x.bits := Xlen.norm_lt _ _

theorem causeWord_lt (s : State) (interrupt : Bool) (code : Nat) (h : code < 16) :
    s.fits (causeWord s.cfg.xlen interrupt code) := by
  unfold State.fits
  rw [causeWord_toNat s interrupt code h]
  unfold State.causeNumber State.modulus
  cases s.cfg.xlen <;> simp only [Xlen.bits] <;> split <;> omega

theorem Exc.code_lt (e : Exc) : e.code < 16 := by cases e <;> decide

theorem mem_of_firstSet {v : Word} {l : List Nat} {n : Nat} (h : firstSet v l = some n) : n ∈ l := by
  induction l with
  | nil => cases h
  | cons k rest ih =>
    unfold firstSet at h
    split at h
    · cases h; exact List.mem_cons_self
    · exact List.mem_cons_of_mem _ (ih h)

/-- The interrupts are those of R396. -/
theorem State.pendingInterrupt_mem {s : State} {n : Nat} (h : s.pendingInterrupt = some n) :
    n ∈ [11, 3, 7, 9, 1, 5] := by
  unfold State.pendingInterrupt at h
  dsimp only at h
  split at h
  · next k hk =>
    cases h
    split at hk
    · exact mem_of_firstSet hk
    · cases hk
  · split at h
    · have hm : n ∈ [9, 1, 5] := mem_of_firstSet h
      exact List.mem_of_mem_drop (i := 3) hm
    · cases h

theorem State.pendingInterrupt_lt {s : State} {n : Nat} (h : s.pendingInterrupt = some n) : n < 16 := by
  have hm := State.pendingInterrupt_mem h
  simp only [List.mem_cons, List.not_mem_nil, or_false] at hm
  omega

/-! ## WARL sets (R41, R44, R45, R46, R51) -/

/-- What a mask leaves lies under the mask. -/
theorem and_and_not_self (v mask : Word) : (v &&& mask) &&& ~~~mask = 0 := by
  rw [BitVec.and_assoc, BitVec.and_not_self]
  exact BitVec.and_zero

/-- A write through `sie` changes delegated supervisor interrupts alone, all of which S-mode has. -/
theorem sie_write_under {mie d v mask : Word} (h : mie &&& ~~~mask = 0) (hd : d &&& ~~~mask = 0) :
    ((mie &&& ~~~d) ||| (v &&& d)) &&& ~~~mask = 0 := by
  have h1 : (mie &&& ~~~d) &&& ~~~mask = 0 := by
    rw [BitVec.and_assoc, BitVec.and_comm (~~~d), ← BitVec.and_assoc, h]
    exact BitVec.zero_and
  have h2 : (v &&& d) &&& ~~~mask = 0 := by
    rw [BitVec.and_assoc, hd]
    exact BitVec.and_zero
  rw [BitVec.and_or_distrib_right, h1, h2]
  exact BitVec.or_zero

/-- The delegated interrupts are interrupts of S-mode. -/
theorem State.delegatedIrqs_under (s : State) : s.delegatedIrqs &&& ~~~0xAAA#64 = 0 := by
  unfold State.delegatedIrqs
  rw [BitVec.and_assoc, show (0x222 : Word) &&& ~~~0xAAA#64 = 0 by decide]
  exact BitVec.and_zero

/-- MPP names a mode the hart has, after any write (R41). -/
theorem legalMpp_existsIn (c : Config) (v : BitVec 2) (old : Priv) (h : old.existsIn c = true) :
    ((legalMpp c v).getD old).existsIn c = true := by
  unfold legalMpp
  split
  · split
    · next hU => exact hU
    · exact h
  · split
    · next hS => exact hS
    · exact h
  · rfl
  · exact h

theorem asidOf_lt (c : Config) {n bound : Nat} (h : n < bound) : asidOf c n < bound :=
  lt_of_le_of_lt (Nat.mod_le _ _) h

theorem satpAsid_lt_of_rv32 {c : Config} (hx : c.xlen = .rv32) (v : Word) : satpAsid c v < 2 ^ 9 := by
  simp only [satpAsid, hx]
  exact asidOf_lt c (BitVec.isLt _)

theorem satpAsid_lt_of_rv64 {c : Config} (hx : c.xlen = .rv64) (v : Word) : satpAsid c v < 2 ^ 16 := by
  simp only [satpAsid, hx]
  exact asidOf_lt c (BitVec.isLt _)

/-- A number below a bit's weight has that bit and every higher one clear. -/
theorem ofNat_getLsbD_of_lt {n i : Nat} (h : n < 2 ^ i) : (BitVec.ofNat 64 n).getLsbD i = false := by
  rw [BitVec.getLsbD_ofNat, Nat.testBit_eq_false_of_lt h, Bool.and_false]

theorem satpStored_legal (c : Config) (v : Word) (h : satpLegal c v = true) :
    satpLegal c (satpStored c v) = true := by
  unfold satpLegal at *
  cases hx : c.xlen with
  | rv32 =>
    have ha := satpAsid_lt_of_rv32 hx v
    have hmode : (satpStored c v).getLsbD 31 = v.getLsbD 31 := by
      simp only [satpStored, hx, BitVec.getLsbD_or]
      rw [ofNat_getLsbD_of_lt (by omega)]
      cases v.getLsbD 31 <;> simp [bitAt]
    simp only [hx] at h ⊢
    rw [hmode]
    exact h
  | rv64 =>
    have ha := satpAsid_lt_of_rv64 hx v
    have hmode : (satpStored c v).extractLsb' 60 4 = v.extractLsb' 60 4 := by
      ext i hi
      have hlow : (BitVec.ofNat 64 (satpAsid c v * 2 ^ 44)).getLsbD (60 + i) = false :=
        ofNat_getLsbD_of_lt (lt_of_lt_of_le (show _ < 2 ^ 60 by omega)
          (Nat.pow_le_pow_right (by decide) (by omega)))
      simp only [satpStored, hx, BitVec.getElem_extractLsb', BitVec.getLsbD_or, hlow]
      interval_cases i <;> simp
    simp only [hx] at h ⊢
    rw [hmode]
    exact h

theorem satpStored_lt (c : Config) (v : Word) : (satpStored c v).toNat < 2 ^ c.xlen.bits := by
  cases hx : c.xlen with
  | rv32 =>
    have ha := satpAsid_lt_of_rv32 hx v
    have hp : (v.extractLsb' 0 22).toNat < 2 ^ 22 := BitVec.isLt _
    have hm : (bitAt (v.getLsbD 31) 31).toNat < 2 ^ 32 := by cases v.getLsbD 31 <;> decide
    simp only [satpStored, hx, Xlen.bits, BitVec.toNat_or, BitVec.toNat_ofNat, BitVec.toNat_setWidth]
    refine Nat.or_lt_two_pow (Nat.or_lt_two_pow hm ?_) ?_ <;> omega
  | rv64 => exact BitVec.isLt _

/-! ## Which CSRs there are (R33) -/

/-- What the configuration has where a CSR exists that only some configurations have (R33). -/
def Csr.existsIn (c : Config) : Csr → Bool
  | .fflags | .frm | .fcsr => c.extF
  | .sstatus | .sie | .stvec | .scounteren | .sscratch | .sepc | .scause | .stval | .sip | .satp
  | .medeleg | .mideleg => c.hasS
  | .mcounteren => c.hasU
  | .cycleh | .timeh | .instreth | .mcycleh | .minstreth => c.xlen == .rv32
  | _ => true

theorem existsIf_eq_some {b : Bool} {r q : Csr} (h : existsIf b r = some q) : b = true ∧ q = r := by
  unfold existsIf at h
  split at h
  · next hb => cases h; exact ⟨hb, rfl⟩
  · cases h

theorem hpmAt_existsIn {c : Config} {a : BitVec 12} {r : Csr} (h : hpmAt c a = some r) :
    r.existsIn c = true := by
  unfold hpmAt at h
  dsimp only at h
  split at h
  · cases h
  · split at h
    · cases h; rfl
    · obtain ⟨-, rfl⟩ := existsIf_eq_some h; rfl
    · cases h; rfl
    · cases h; rfl
    · obtain ⟨-, rfl⟩ := existsIf_eq_some h; rfl
    · cases h

/-- An address names a CSR only where that CSR exists: a row of R33 gives the CSR in every configuration, or under
its condition, or is one of the performance-monitor rows. -/
theorem csrAt_existsIn {c : Config} {a : BitVec 12} {r : Csr} (h : csrAt c a = some r) :
    r.existsIn c = true := by
  unfold csrAt at h
  dsimp only at h
  split at h
  all_goals first
    | (cases h; rfl)
    | (obtain ⟨hb, rfl⟩ := existsIf_eq_some h; exact hb)
    | exact hpmAt_existsIn h

/-! ## The page offset (R68, R70 step 8) -/

theorem leafAddress_mod (w : Walk) (i pte : Nat) :
    leafAddress w i pte % 4096 = w.vaddr.toNat % 4096 := by
  unfold leafAddress
  dsimp only
  rw [Nat.add_mod, Nat.mul_mod_left, Nat.mod_mul_right_mod, Nat.zero_add, Nat.mod_mod]

theorem State.leaf_mod {s t : State} {w : Walk} {i a pte pa : Nat}
    (h : s.leaf w i a pte = .ok (t, pa)) : pa % 4096 = w.vaddr.toNat % 4096 := by
  unfold State.leaf at h
  split at h
  · cases h
  · split at h
    · cases h
    · split at h
      · split at h
        · cases h
        · split at h
          · cases h; exact leafAddress_mod _ _ _
          · cases h
      · cases h; exact leafAddress_mod _ _ _

theorem State.walkLevel_mod {s t : State} {w : Walk} {g : Bool} {i table pa : Nat}
    (h : s.walkLevel w g i table = .done (.ok (t, pa))) : pa % 4096 = w.vaddr.toNat % 4096 := by
  unfold State.walkLevel at h
  dsimp only at h
  split at h
  · split at h
    · cases h
    · split at h
      · cases h
      · injection h with h
        exact State.leaf_mod h
  · cases h

theorem State.walk_mod {s t : State} {w : Walk} {i : Nat} {g : Bool} {table pa : Nat}
    (h : s.walk w g i table = .ok (t, pa)) : pa % 4096 = w.vaddr.toNat % 4096 := by
  induction i generalizing g table with
  | zero =>
    unfold State.walk at h
    split at h
    · cases h
    · next hr => subst h; exact State.walkLevel_mod hr
  | succ i ih =>
    unfold State.walk at h
    split at h
    · exact ih h
    · next hr => subst h; exact State.walkLevel_mod hr

/-- A translation keeps the offset in the page. -/
theorem State.translate_mod {s t : State} {acc : Access} {v : Word} {pa : Nat}
    (h : s.translate acc v = .ok (t, pa)) : pa % 4096 = v.toNat % 4096 := by
  unfold State.translate at h
  dsimp only at h
  split at h
  · cases h; rfl
  · split at h
    · cases h; rfl
    · split at h
      · exact State.walk_mod h
      · cases h

/-- The first byte of an `lr` that resolves is aligned in physical memory (R53, R61). -/
theorem State.dataBytes_lr_aligned {s t : State} {v : Word} {n : Nat} {l : List Nat}
    (hn : n = 4 ∨ n = 8) (h : s.dataBytes .lr v n = .ok (t, l)) : firstByte l % n = 0 := by
  unfold State.dataBytes at h
  obtain ⟨⟨u, k⟩, hres, hmain⟩ := (Res.bind_eq_ok _ _ _).1 h
  obtain ⟨-, rfl⟩ := State.mainBytes_eq_ok _ _ _ _ hmain
  unfold State.resolve at hres
  split at hres
  · next hv =>
    unfold State.physical at hres
    obtain ⟨⟨u', pa⟩, htr, hreg⟩ := (Res.bind_eq_ok _ _ _).1 hres
    dsimp only at hreg
    split at hreg
    · cases hreg
      have hd := State.translate_mod htr
      rw [firstByte_bytesFrom _ _ (by omega)]
      rcases hn with rfl | rfl <;> omega
    · cases hreg
  · cases hres

end Sys2Proof.Machine
end

section
/-! SUPPORT. Each operation on the state keeps `State.Inv`: register writes, CSR writes, traps, the boundary of
an instruction. -/

namespace Sys2Proof.Machine

open Sys2Proof

/-! ## Memory and the reservation -/

theorem State.Inv.setMem {s : State} (h : s.Inv) {m : Mem} (hm : m.wf = true) :
    State.Inv { s with mem := m } := { h with memory := hm }

theorem State.Inv.clearResv {s : State} (h : s.Inv) : State.Inv { s with resv := none } :=
  { h with reservation := by rintro _ ⟨⟩ }

/-- An aligned word or doubleword may be reserved (R53). -/
theorem State.Inv.reserve {s : State} (h : s.Inv) {a n : Nat} (hn : n = 4 ∨ n = 8) (ha : a % n = 0) :
    State.Inv { s with resv := some { addr := a, size := n } } :=
  { h with reservation := by rintro _ ⟨⟩; exact ⟨hn, ha⟩ }

/-! ## Registers -/

theorem State.Inv.setX {s : State} (h : s.Inv) (r : Reg) (v : Word) : (s.setX r v).Inv := by
  unfold State.setX
  split
  · exact h
  · refine { h with registers := fun q => ?_ }
    change ((s.x.set r.toNat (s.cfg.xlen.norm v))[q.toNat]).toNat < s.modulus
    rw [Vector.getElem_set]
    split
    · exact Xlen.norm_lt _ _
    · exact h.registers q

/-- A floating-point register is written only where F exists, so FS may become Dirty (R26, R221). -/
theorem State.Inv.setF {s : State} (h : s.Inv) (hF : s.cfg.extF = true) (r : Reg) (v : Word) :
    (s.setF r v).Inv := by
  refine { h with noF := fun hn => Bool.noConfusion (hF.symm.trans hn), single := fun hs q => ?_ }
  have hs : s.cfg.flen64 = false := hs
  unfold State.setF
  dsimp only
  rw [Vector.getElem_set, hs]
  split
  · have := (v.setWidth 32).isLt
    simp
    omega
  · exact h.single hs q

theorem State.Inv.accrue {s : State} (h : s.Inv) (hF : s.cfg.extF = true) (fl : FpFlags) :
    (s.accrue fl).Inv := by
  unfold State.accrue
  split
  · exact h
  · exact { h with noF := fun hn => Bool.noConfusion (hF.symm.trans hn) }

/-! ## CSRs -/

theorem State.Inv.dirty {s : State} (h : s.Inv) (hF : s.cfg.extF = true) : s.dirty.Inv :=
  { h with noF := fun hn => Bool.noConfusion (hF.symm.trans hn) }

theorem State.Inv.writeSstatus {s : State} (h : s.Inv) (hS : s.cfg.hasS = true) (v : Word) :
    (s.writeSstatus v).Inv :=
  { h with
    noS := fun hn => Bool.noConfusion (hS.symm.trans hn)
    noF := fun hn => if_neg (ne_true_of_eq_false hn) }

theorem State.Inv.writeMstatus {s : State} (h : s.Inv) (v : Word) : (s.writeMstatus v).Inv :=
  { h with
    mpp := legalMpp_existsIn s.cfg _ _ h.mpp
    noS := fun hn => by have hn : s.cfg.hasS = false := hn; simp [State.writeMstatus, hn]
    noU := fun hn => by have hn : s.cfg.hasU = false := hn; simp [State.writeMstatus, hn]
    noF := fun hn => if_neg (ne_true_of_eq_false hn) }

theorem State.Inv.writeSatp {s : State} (h : s.Inv) (v : Word) : (s.writeSatp v).Inv := by
  rcases s.writeSatp_cases v with e | ⟨hl, e⟩
  · rw [e]; exact h
  · rw [e]; exact { h with satpMode := ⟨satpStored_legal _ _ hl, satpStored_lt _ _⟩ }

/-- A write of an XLEN-bit value to a CSR that exists leaves every field in its WARL set (R32, R41 to R51). -/
theorem State.Inv.csrWrite {s : State} (h : s.Inv) {r : Csr} (hr : r.existsIn s.cfg = true) {v : Word}
    (hv : s.fits v) : (s.csrWrite r v).Inv := by
  obtain ⟨hmscratch, hsscratch, hmcause, hscause, hmtval, hstval⟩ := h.words
  cases r with
  | cycle | time | instret | cycleh | timeh | instreth | hpmcounter | mvendorid | marchid | mimpid
  | mhartid | misa | hardwired => exact h
  | scounteren | mcounteren | mcycle | mcycleh | minstret | minstreth => exact { h with }
  | fflags | frm | fcsr => exact { h.dirty hr with }
  | sstatus => exact h.writeSstatus hr v
  | mstatus => exact h.writeMstatus v
  | satp => exact h.writeSatp v
  | stvec => exact { h with stvec := ⟨tvecMask_lt hv, tvecMask_bit v⟩ }
  | mtvec => exact { h with mtvec := ⟨tvecMask_lt hv, tvecMask_bit v⟩ }
  | sepc => exact { h with sepc := ⟨epcMask_lt _ _, epcMask_aligned _ _⟩ }
  | mepc => exact { h with mepc := ⟨epcMask_lt _ _, epcMask_aligned _ _⟩ }
  | medeleg => exact { h with delegation := ⟨and_and_not_self _ _, h.delegation.2⟩ }
  | mideleg => exact { h with delegation := ⟨h.delegation.1, and_and_not_self _ _⟩ }
  | mie => exact { h with enables := and_and_not_self _ _ }
  | sie =>
    have hS : s.cfg.hasS = true := hr
    have hm := h.enables
    rw [if_pos hS] at hm
    refine { h with enables := ?_ }
    change _ &&& ~~~(if s.cfg.hasS then 0xAAA#64 else 0x888#64) = 0
    rw [if_pos hS]
    exact sie_write_under hm s.delegatedIrqs_under
  | mscratch => exact { h with words := ⟨hv, hsscratch, hmcause, hscause, hmtval, hstval⟩ }
  | sscratch => exact { h with words := ⟨hmscratch, hv, hmcause, hscause, hmtval, hstval⟩ }
  | mcause => exact { h with words := ⟨hmscratch, hsscratch, hv, hscause, hmtval, hstval⟩ }
  | scause => exact { h with words := ⟨hmscratch, hsscratch, hmcause, hv, hmtval, hstval⟩ }
  | mtval => exact { h with words := ⟨hmscratch, hsscratch, hmcause, hscause, hv, hstval⟩ }
  | stval => exact { h with words := ⟨hmscratch, hsscratch, hmcause, hscause, hmtval, hv⟩ }
  | sip | mip =>
    unfold State.csrWrite
    dsimp only
    split
    · exact { h with }
    · exact h

/-! ## Traps and returns (R400, R401) -/

theorem State.Inv.trapEntry {s : State} (h : s.Inv) (interrupt : Bool) {code : Nat} (hc : code < 16)
    (epc tval : Word) : (s.trapEntry interrupt code epc tval).Inv := by
  obtain ⟨hmscratch, hsscratch, hmcause, hscause, hmtval, hstval⟩ := h.words
  have hcause := causeWord_lt s interrupt code hc
  have htval : s.fits (s.cfg.xlen.norm tval) := Xlen.norm_lt _ _
  unfold State.trapEntry
  dsimp only
  split
  · next hd =>
    have hS : s.cfg.hasS = true := by
      simp only [State.delegated, Bool.and_eq_true] at hd
      exact hd.1.1
    exact { h with
      pcFits := vectorTarget_lt _ _ _ _
      pcAligned := vectorTarget_aligned s _ _ _
      mode := hS
      noS := fun hn => Bool.noConfusion (hS.symm.trans hn)
      sepc := ⟨epcMask_lt _ _, epcMask_aligned _ _⟩
      words := ⟨hmscratch, hsscratch, hmcause, hcause, hmtval, htval⟩
      reservation := by rintro _ ⟨⟩ }
  · exact { h with
      pcFits := vectorTarget_lt _ _ _ _
      pcAligned := vectorTarget_aligned s _ _ _
      mode := rfl
      mpp := h.mode
      mepc := ⟨epcMask_lt _ _, epcMask_aligned _ _⟩
      words := ⟨hmscratch, hsscratch, hcause, hscause, htval, hstval⟩
      reservation := by rintro _ ⟨⟩ }

theorem State.Inv.returnFromM {s : State} (h : s.Inv) : s.returnFromM.Inv :=
  { h with
    pcFits := h.mepc.1
    pcAligned := h.mepc.2
    mode := h.mpp
    mpp := by
      unfold State.returnFromM
      dsimp only
      split
      · next hU => exact hU
      · rfl
    reservation := by rintro _ ⟨⟩ }

/-- `sret` exists only with S, so the mode it names does too (R9). -/
theorem State.Inv.returnFromS {s : State} (h : s.Inv) (hS : s.cfg.hasS = true) : s.returnFromS.Inv :=
  { h with
    pcFits := h.sepc.1
    pcAligned := h.sepc.2
    mode := by
      have hU : s.cfg.hasU = true := by
        simp only [Config.hasS, beq_iff_eq] at hS
        simp [Config.hasU, hS]
      unfold State.returnFromS
      dsimp only
      split
      · exact hS
      · exact hU
    noS := fun hn => Bool.noConfusion (hS.symm.trans hn)
    reservation := by rintro _ ⟨⟩ }

/-! ## The boundary of an instruction (R392) -/

theorem State.Inv.beginStep {s : State} (h : s.Inv) : s.beginStep.Inv := by
  unfold State.beginStep
  split
  · exact { h with }
  · refine { h with reservation := fun r hr => ?_ }
    dsimp only at hr
    split at hr
    · cases hr
    · exact h.reservation r hr

theorem State.Inv.takeInterrupt {s : State} (h : s.Inv) {n : Nat} (hn : s.pendingInterrupt = some n) :
    (s.takeInterrupt n).Inv := h.trapEntry true (State.pendingInterrupt_lt hn) _ _

end Sys2Proof.Machine
end

section
/-! SUPPORT. The invariant while an instruction runs, when the memory from before its fetch may be kept
(R392 step 7), and the ways a running instruction ends. -/

namespace Sys2Proof.Machine

open Sys2Proof

/-- The state with no memory kept from before the fetch. -/
def State.settled (s : State) : State := { s with beforeFetch := none }

/-- The invariant of a state in which an instruction of the configuration runs: that of a state between steps,
but that memory from before the fetch may be kept, in canonical form. -/
structure State.Running (c : Config) (s : State) : Prop where
  cfg : s.cfg = c
  inv : s.settled.Inv
  kept : ∀ m, s.beforeFetch = some m → m.wf = true

theorem State.Inv.running {s : State} (h : s.Inv) : s.Running s.cfg where
  cfg := rfl
  inv := by
    have e : s.settled = s := by
      unfold State.settled
      rw [← h.betweenSteps]
    rw [e]
    exact h
  kept := fun m hm => by rw [h.betweenSteps] at hm; cases hm

/-! ## What a running instruction does to the state -/

theorem State.settled_setX (s : State) (r : Reg) (v : Word) :
    (s.setX r v).settled = s.settled.setX r v := by
  unfold State.setX
  split <;> rfl

theorem State.settled_accrue (s : State) (fl : FpFlags) :
    (s.accrue fl).settled = s.settled.accrue fl := by
  unfold State.accrue
  split <;> rfl

theorem State.settled_writeSatp (s : State) (v : Word) :
    (s.writeSatp v).settled = s.settled.writeSatp v := by
  unfold State.writeSatp
  dsimp only
  split
  · next hl =>
    rw [if_pos (show satpLegal s.settled.cfg v = true from hl)]
    exact apply_ite State.settled _ _ _
  · next hl => exact (if_neg hl).symm

theorem State.settled_csrWrite (s : State) (r : Csr) (v : Word) :
    (s.csrWrite r v).settled = s.settled.csrWrite r v := by
  cases r with
  | satp => exact s.settled_writeSatp v
  | sip | mip => exact apply_ite State.settled _ _ _
  | _ => rfl

namespace State.Running

variable {c : Config} {s t : State}

theorem setX (h : s.Running c) (r : Reg) (v : Word) : (s.setX r v).Running c where
  cfg := by rw [State.setX_cfg]; exact h.cfg
  inv := by rw [State.settled_setX]; exact h.inv.setX r v
  kept := by rw [State.setX_beforeFetch]; exact h.kept

theorem setF (h : s.Running c) (hF : c.extF = true) (r : Reg) (v : Word) : (s.setF r v).Running c where
  cfg := h.cfg
  inv := h.inv.setF (h.cfg ▸ hF) r v
  kept := h.kept

theorem accrue (h : s.Running c) (hF : c.extF = true) (fl : FpFlags) : (s.accrue fl).Running c where
  cfg := by rw [State.accrue_cfg]; exact h.cfg
  inv := by rw [State.settled_accrue]; exact h.inv.accrue (h.cfg ▸ hF) fl
  kept := by rw [State.accrue_beforeFetch]; exact h.kept

theorem putS (h : s.Running c) (hF : c.extF = true) (rd : Reg) (r : FpResult) : (s.putS rd r).Running c :=
  (h.setF hF _ _).accrue hF _

theorem putD (h : s.Running c) (hF : c.extF = true) (rd : Reg) (r : FpResult) : (s.putD rd r).Running c :=
  (h.setF hF _ _).accrue hF _

theorem csrWrite (h : s.Running c) {r : Csr} (hr : r.existsIn c = true) {v : Word} (hv : s.fits v) :
    (s.csrWrite r v).Running c := by
  obtain ⟨hcfg, -, -, -, -, -, -, -, -, -, hkept⟩ := s.csrWrite_frame r v
  exact {
    cfg := hcfg.trans h.cfg
    inv := by rw [State.settled_csrWrite]; exact h.inv.csrWrite (by rw [← h.cfg] at hr; exact hr) hv
    kept := by rw [hkept]; exact h.kept }

theorem setMem (h : s.Running c) {m : Mem} (hm : m.wf = true) :
    State.Running c { s with mem := m } := ⟨h.cfg, h.inv.setMem hm, h.kept⟩

theorem writeAll (h : s.Running c) (l : List Nat) (v : Nat) :
    State.Running c { s with mem := s.mem.writeAll l v } := h.setMem (Mem.wf_writeAll l _ v h.inv.memory)

theorem clearResv (h : s.Running c) : State.Running c { s with resv := none } :=
  ⟨h.cfg, h.inv.clearResv, h.kept⟩

theorem reserve (h : s.Running c) {a n : Nat} (hn : n = 4 ∨ n = 8) (ha : a % n = 0) :
    State.Running c { s with resv := some { addr := a, size := n } } :=
  ⟨h.cfg, h.inv.reserve hn ha, h.kept⟩

/-- A fence forgets old values, and leaves memory as it is. -/
theorem fenceVma (h : s.Running c) (vaddr asid : Option Word) : (s.fenceVma vaddr asid).Running c := by
  refine ⟨h.cfg, { h.inv with memory := ?_ }, h.kept⟩
  change (if _ then _ else _ : Mem).wf = true
  split
  · exact Mem.wf_fencePte _ h.inv.memory
  · exact Mem.wf_notePteFence _ _ h.inv.memory

/-- An access that changes PTEs alone keeps the invariant (R70 step 7). -/
theorem onlyMem (h : s.Running c) (ho : OnlyMem s t) : t.Running c where
  cfg := by rw [ho.same]; exact h.cfg
  inv := by
    have e : t.settled = { s.settled with mem := t.mem } := by rw [ho.same]; rfl
    rw [e]
    exact h.inv.setMem (ho.wf h.inv.memory)
  kept := fun m hm => by
    rcases ho.kept m hm with hk | rfl | hk
    · exact h.kept m hk
    · exact h.inv.memory
    · exact hk h.inv.memory

/-! ## How it ends -/

theorem pcPlus_aligned (h : s.Running c) {o : Word} (ho : o.toNat % c.ialignBytes = 0) :
    (s.pcPlus o).toNat % c.ialignBytes = 0 := by
  obtain rfl := h.cfg
  exact State.pcPlus_aligned s o h.inv.pcAligned ho

theorem retireAt (h : s.Running c) {target : Word} (hf : s.fits target)
    (ha : target.toNat % c.ialignBytes = 0) : (s.retireAt target).Inv := by
  obtain rfl := h.cfg
  exact { h.inv with pcFits := hf, pcAligned := ha }

/-- Retiring an instruction whose length suits the alignment of the pc. -/
theorem retire (h : s.Running c) {len : Nat} (hlen : len % c.ialignBytes = 0) : (s.retire len).Inv := by
  refine h.retireAt (s.pcPlus_lt _) (h.pcPlus_aligned ?_)
  rw [BitVec.toNat_ofNat, Nat.mod_mod_of_dvd _ (c.ialignBytes_dvd_four.trans (by decide))]
  exact hlen

/-- An exception is taken from memory as it was before the fetch (R392 step 7). -/
theorem takeException (h : s.Running c) (e : Exc) (tval : Word) : (s.takeException e tval).Inv := by
  have hd : s.discardFetch.Inv := by
    refine { h.inv with memory := ?_ }
    rw [State.discardFetch_mem]
    cases hb : s.beforeFetch with
    | none => exact h.inv.memory
    | some m => exact h.kept m hb
  exact hd.trapEntry false (Exc.code_lt e) _ _

end State.Running

/-! ## Outcomes -/

/-- Whatever value the rule answers has the property. -/
def Res.Ensures {α : Type} (r : Res α) (P : α → Prop) : Prop := ∀ a, r = .ok a → P a

theorem Res.Ensures.bind {α β : Type} {r : Res α} {k : α → Res β} {P : α → Prop} {Q : β → Prop}
    (h : r.Ensures P) (hk : ∀ a, P a → (k a).Ensures Q) : (r.bind k).Ensures Q := fun b hb => by
  obtain ⟨a, ha, hb⟩ := (Res.bind_eq_ok r k b).1 hb
  exact hk a (h a ha) b hb

theorem Res.Ensures.ok {α : Type} {a : α} {P : α → Prop} (h : P a) : (Res.ok a).Ensures P := by
  rintro _ ⟨⟩
  exact h

theorem Res.Ensures.raise {α : Type} {e : Exc} {tval : Word} {P : α → Prop} :
    (Res.raise e tval : Res α).Ensures P := by
  rintro _ ⟨⟩

/-- Whatever next state the outcome is meets the invariant. -/
def KeepsInv (r : Result) : Prop := ∀ t, r = .next t → t.Inv

theorem KeepsInv.next {t : State} (h : t.Inv) : KeepsInv (.next t) := by
  rintro _ ⟨⟩
  exact h

section
variable {c : Config} {s : State}

/-- A rule begun in `s` keeps the invariant if its own effect does: a trap from `s` always does. -/
theorem State.Running.commit (h : s.Running c) {r : Res State} (hr : r.Ensures State.Inv) :
    KeepsInv (s.commit r) := fun t ht => by
  rcases (s.commit_eq_next t r).1 ht with e | ⟨e, tval, -, rfl⟩
  · exact hr t e
  · exact h.takeException e tval

/-! ## Memory accesses -/

theorem State.Running.dataBytes (h : s.Running c) (op : MemOp) (v : Word) (n : Nat) :
    (s.dataBytes op v n).Ensures fun p => p.1.Running c :=
  fun ⟨_, _⟩ hp => h.onlyMem (s.dataBytes_onlyMem _ _ _ _ _ hp)

theorem State.Running.load (h : s.Running c) (v : Word) (n : Nat) :
    (s.load v n).Ensures fun p => p.1.Running c :=
  (h.dataBytes .load v n).bind fun _ hp => .ok hp

theorem State.Running.store (h : s.Running c) (v : Word) (n : Nat) (w : Word) :
    (s.store v n w).Ensures (State.Running c) :=
  (h.dataBytes .store v n).bind fun p hp => .ok (hp.writeAll p.2 _)

theorem State.Running.loadReserve (h : s.Running c) (v : Word) {n : Nat} (hn : n = 4 ∨ n = 8) :
    (s.loadReserve v n).Ensures fun p => p.1.Running c := by
  have hd : (s.dataBytes .lr v n).Ensures fun p => p.1.Running c ∧ firstByte p.2 % n = 0 :=
    fun p hp => ⟨h.dataBytes .lr v n p hp, State.dataBytes_lr_aligned hn hp⟩
  exact hd.bind fun p hp => .ok (hp.1.reserve hn hp.2)

theorem State.Running.storeConditional (h : s.Running c) (v : Word) (n : Nat) (w : Word) :
    (s.storeConditional v n w).Ensures fun p => p.1.Running c := by
  have hres : (s.resolve .sc v n).Ensures fun p => p.1.Running c :=
    fun ⟨_, _⟩ hp => h.onlyMem (s.resolve_onlyMem _ _ _ _ _ hp)
  refine hres.bind fun p hp => ?_
  dsimp only
  split
  · have hmain : (p.1.mainBytes p.2).Ensures fun q => q.1.Running c := fun q hq => by
      obtain ⟨e, -⟩ := State.mainBytes_eq_ok _ _ _ _ hq
      rw [e]
      exact hp
    exact hmain.bind fun q hq => .ok (hq.writeAll q.2 _).clearResv
  · exact .ok hp.clearResv

theorem State.Running.amo (h : s.Running c) (v : Word) (n : Nat) (op : Word → Word) :
    (s.amo v n op).Ensures fun p => p.1.Running c :=
  (h.dataBytes .amo v n).bind fun p hp => .ok (hp.writeAll p.2 _)

/-! ## Floating-point checks -/

/-- FS is not Off only where F exists, so what follows `FPCheck()` may use F (R41, R221). -/
theorem State.Running.fpCheck {α : Type} (h : s.Running c) {P : α → Prop} {i : Instr} {k : Res α}
    (hk : c.extF = true → k.Ensures P) : (s.fpCheck i k).Ensures P := by
  unfold State.fpCheck
  split
  · exact .raise
  · next hfs =>
    refine hk ?_
    cases hF : c.extF with
    | true => rfl
    | false =>
      rw [← h.cfg] at hF
      exact absurd (h.inv.noF hF) hfs

theorem State.Running.fpRounded {α : Type} (h : s.Running c) {P : α → Prop} {i : Instr} {rm : BitVec 3}
    {k : Rounding → Res α} (hk : ∀ mode, c.extF = true → (k mode).Ensures P) :
    (s.fpRounded i rm k).Ensures P :=
  h.fpCheck fun hF => by
    cases s.rounding rm with
    | none => exact .raise
    | some mode => exact hk mode hF

end

end Sys2Proof.Machine
end

section
/-! Every shape of a meaning keeps the invariant, hence every instruction, hence every step. -/

namespace Sys2Proof.Machine

open Sys2Proof

/-! ## The shapes of `Machine/Effects.lean` -/

namespace State.Running

variable {c : Config} {s : State} {i : Instr} {rd rs1 rs2 : Reg} {v : Word} {n len : Nat} {rm : BitVec 3}

theorem putX (h : s.Running c) (hlen : len % c.ialignBytes = 0) : KeepsInv (s.putX rd v len) :=
  .next ((h.setX rd v).retire hlen)

/-- The target of a branch or jump that runs on is aligned (R24). -/
theorem checkTarget (h : s.Running c) (target : Word) :
    (s.checkTarget target).Ensures fun _ => target.toNat % c.ialignBytes = 0 := by
  unfold State.checkTarget
  rw [h.cfg]
  split
  · next ha => exact .ok ha
  · exact .raise

theorem branch (h : s.Running c) {taken : Bool} {o : Word} : KeepsInv (s.branch taken o) := by
  unfold State.branch
  split
  · exact h.commit ((h.checkTarget _).bind fun _ ha => .ok (h.retireAt (s.pcPlus_lt o) ha))
  · exact .next (h.retire (c.aligned_of_four rfl))

theorem jump (h : s.Running c) {target : Word} (hf : s.fits target) : KeepsInv (s.jump rd target) := by
  refine h.commit ((h.checkTarget _).bind fun _ ha => .ok ((h.setX rd _).retireAt ?_ ha))
  unfold State.fits State.modulus
  rw [State.setX_cfg]
  exact hf

theorem cBranch (h : s.Running c) (hlen : 2 % c.ialignBytes = 0) {taken : Bool} {o : Word}
    (ho : o.toNat % 2 = 0) : KeepsInv (s.cBranch taken o) := by
  refine .next ?_
  split
  · exact h.retireAt (s.pcPlus_lt o) (h.pcPlus_aligned (c.aligned_of_even hlen ho))
  · exact h.retire hlen

theorem cJump (h : s.Running c) {target : Word} (hf : s.fits target)
    (ha : target.toNat % c.ialignBytes = 0) : KeepsInv (s.cJump rd target) := by
  refine .next ((h.setX rd _).retireAt ?_ ha)
  unfold State.fits State.modulus
  rw [State.setX_cfg]
  exact hf

/-- `c.j` and `c.jal`: an even offset from the pc. -/
theorem cJumpOffset (h : s.Running c) (hlen : 2 % c.ialignBytes = 0) {o : Word} (ho : o.toNat % 2 = 0) :
    KeepsInv (s.cJump rd (s.pcPlus o)) :=
  h.cJump (s.pcPlus_lt o) (h.pcPlus_aligned (c.aligned_of_even hlen ho))

/-- `c.jr` and `c.jalr`: a register with bit 0 cleared. -/
theorem cJumpRegister (h : s.Running c) (hlen : 2 % c.ialignBytes = 0) :
    KeepsInv (s.cJump rd (clearBit0 (s.getX rs1))) :=
  h.cJump (lt_of_le_of_lt (clearBit0_le _) (s.getX_lt rs1)) (c.aligned_of_even hlen (clearBit0_even _))

theorem loadX (h : s.Running c) (hlen : len % c.ialignBytes = 0) {ext : Word → Word} :
    KeepsInv (s.loadX rd v n ext len) :=
  h.commit ((h.load v n).bind fun _ hp => .ok ((hp.setX rd _).retire hlen))

theorem storeX (h : s.Running c) (hlen : len % c.ialignBytes = 0) {w : Word} :
    KeepsInv (s.storeX v n w len) :=
  h.commit ((h.store v n w).bind fun _ hp => .ok (hp.retire hlen))

theorem lrX (h : s.Running c) (hn : n = 4 ∨ n = 8) {ext : Word → Word} : KeepsInv (s.lrX rd rs1 n ext) :=
  h.commit ((h.loadReserve _ hn).bind fun _ hp => .ok ((hp.setX rd _).retire (c.aligned_of_four rfl)))

theorem scX (h : s.Running c) : KeepsInv (s.scX rd rs2 rs1 n) :=
  h.commit ((h.storeConditional _ n _).bind fun _ hp =>
    .ok ((hp.setX rd _).retire (c.aligned_of_four rfl)))

theorem amoX (h : s.Running c) {ext : Word → Word} {op : Word → Word → Word} :
    KeepsInv (s.amoX rd rs2 rs1 n ext op) :=
  h.commit ((h.amo _ n _).bind fun _ hp => .ok ((hp.setX rd _).retire (c.aligned_of_four rfl)))

theorem csrUpdate (h : s.Running c) {r : Csr} (hr : r.existsIn c = true) {writes : Bool}
    {newValue : Word → Word} : (s.csrUpdate r rd writes newValue).Running c := by
  unfold State.csrUpdate
  refine State.Running.setX ?_ _ _
  split
  · exact h.csrWrite hr (Xlen.norm_lt _ _)
  · exact h

theorem csrRetire (h : s.Running c) {r : Csr} {writes : Bool} : (s.csrRetire r writes).Inv := by
  have hret : (s.retire 4).Inv := h.retire (c.aligned_of_four rfl)
  unfold State.csrRetire
  split
  · exact { hret with }
  · exact hret

/-- A CSR instruction writes only a CSR that exists (R31, R161). -/
theorem csr (h : s.Running c) {a : BitVec 12} {writes : Bool} {newValue : Word → Word} :
    KeepsInv (s.csr i a rd writes newValue) := by
  refine h.commit fun t ht => ?_
  obtain ⟨r, hr, rfl⟩ := s.csrInstr_eq_ok t i a rd writes newValue ht
  obtain ⟨-, -, hat, -⟩ := (s.csrAccess_eq_some a writes r).1 hr
  rw [h.cfg] at hat
  exact (h.csrUpdate (csrAt_existsIn hat)).csrRetire

theorem privileged (h : s.Running c) {allowed : Bool} {t : State} (ht : t.Inv) :
    KeepsInv (s.privileged i allowed t) := by
  refine h.commit ?_
  split
  · exact .ok ht
  · exact .raise

theorem fpS (h : s.Running c) {op : Rounding → FpResult} : KeepsInv (s.fpS i rd rm op) :=
  h.commit (h.fpRounded fun _ hF => .ok ((h.putS hF rd _).retire (c.aligned_of_four rfl)))

theorem fpD (h : s.Running c) {op : Rounding → FpResult} : KeepsInv (s.fpD i rd rm op) :=
  h.commit (h.fpRounded fun _ hF => .ok ((h.putD hF rd _).retire (c.aligned_of_four rfl)))

theorem fpExactS (h : s.Running c) {r : FpResult} : KeepsInv (s.fpExactS i rd r) :=
  h.commit (h.fpCheck fun hF => .ok ((h.putS hF rd r).retire (c.aligned_of_four rfl)))

theorem fpExactD (h : s.Running c) {r : FpResult} : KeepsInv (s.fpExactD i rd r) :=
  h.commit (h.fpCheck fun hF => .ok ((h.putD hF rd r).retire (c.aligned_of_four rfl)))

theorem fpX (h : s.Running c) {fl : FpFlags} : KeepsInv (s.fpX i rd v fl) :=
  h.commit (h.fpCheck fun hF => .ok (((h.setX rd v).accrue hF fl).retire (c.aligned_of_four rfl)))

theorem fpToX (h : s.Running c) {ty : IntType} {op : Rounding → Int × FpFlags} :
    KeepsInv (s.fpToX i rd rm ty op) :=
  h.commit (h.fpRounded fun _ hF => .ok (((h.setX rd _).accrue hF _).retire (c.aligned_of_four rfl)))

theorem fpLoadS (h : s.Running c) (hlen : len % c.ialignBytes = 0) : KeepsInv (s.fpLoadS i rd v len) :=
  h.commit (h.fpCheck fun hF => (h.load v 4).bind fun _ hp => .ok ((hp.setF hF rd _).retire hlen))

theorem fpLoadD (h : s.Running c) (hlen : len % c.ialignBytes = 0) : KeepsInv (s.fpLoadD i rd v len) :=
  h.commit (h.fpCheck fun hF => (h.load v 8).bind fun _ hp => .ok ((hp.setF hF rd _).retire hlen))

theorem fpStore (h : s.Running c) (hlen : len % c.ialignBytes = 0) :
    KeepsInv (s.fpStore i rs2 v n len) :=
  h.commit (h.fpCheck fun _ => (h.store v n _).bind fun _ hp => .ok (hp.retire hlen))

end State.Running

/-! ## Every instruction -/

/-- The meaning of an instruction that exists keeps the invariant, each by the shape it has. -/
theorem exec_keepsInv {c : Config} {s : State} (h : s.Running c) (i : Instr) (hi : i.existsIn c = true) :
    KeepsInv (exec i s) := by
  have hlen := i.size_aligned c hi
  cases i with
  | lui | auipc | addi | slti | sltiu | xori | ori | andi | slli | srli | srai | add | sub | sll | slt
  | sltu | xor | srl | sra | or | and | addiw | slliw | srliw | sraiw | addw | subw | sllw | srlw | sraw
  | mul | mulh | mulhsu | mulhu | div | divu | rem | remu | mulw | divw | divuw | remw | remuw
  | cAddi4spn | cAddi | cAddiw | cLi | cAddi16sp | cLui | cSrli | cSrai | cAndi | cSub | cXor | cOr | cAnd
  | cSubw | cAddw | cSlli | cMv | cAdd => exact h.putX hlen
  | beq | bne | blt | bge | bltu | bgeu => exact h.branch
  | jal => exact h.jump (s.pcPlus_lt _)
  | jalr => exact h.jump (lt_of_le_of_lt (clearBit0_le _) (s.addrPlus_lt _ _))
  | cBeqz rs1 imm | cBnez rs1 imm => exact h.cBranch hlen (doubled_even imm)
  | cJ imm | cJal imm => exact h.cJumpOffset hlen (doubled_even imm)
  | cJr | cJalr => exact h.cJumpRegister hlen
  | lb | lh | lw | lbu | lhu | lwu | ld | cLw | cLd | cLwsp | cLdsp => exact h.loadX hlen
  | sb | sh | sw | sd | cSw | cSd | cSwsp | cSdsp => exact h.storeX hlen
  | lrW => exact h.lrX (.inl rfl)
  | lrD => exact h.lrX (.inr rfl)
  | scW | scD => exact h.scX
  | amoswapW | amoaddW | amoxorW | amoandW | amoorW | amominW | amomaxW | amominuW | amomaxuW
  | amoswapD | amoaddD | amoxorD | amoandD | amoorD | amominD | amomaxD | amominuD | amomaxuD =>
    unfold exec
    exact h.amoX
  | csrrw | csrrs | csrrc | csrrwi | csrrsi | csrrci => exact h.csr
  | ecall | ebreak | cEbreak => exact h.commit .raise
  | fence => exact .next (h.retire hlen)
  | fenceI => exact .next ((h.setMem (Mem.wf_fenceCode _ h.inv.memory)).retire hlen)
  | wfi => exact h.privileged (h.retire hlen)
  | sfenceVma => exact h.privileged ((h.fenceVma _ _).retire hlen)
  | mret => exact h.privileged { h.inv.returnFromM with }
  | sret =>
    have hS : s.cfg.hasS = true := by
      rw [h.cfg]
      exact (Bool.and_eq_true_iff.1 hi).1
    exact h.privileged { h.inv.returnFromS hS with }
  | faddS | fsubS | fmulS | fdivS | fsqrtS | fmaddS | fmsubS | fnmsubS | fnmaddS | fcvtSW | fcvtSWu
  | fcvtSL | fcvtSLu | fcvtSD => exact h.fpS
  | faddD | fsubD | fmulD | fdivD | fsqrtD | fmaddD | fmsubD | fnmsubD | fnmaddD | fcvtDW | fcvtDWu
  | fcvtDL | fcvtDLu | fcvtDS => exact h.fpD
  | fsgnjS | fsgnjnS | fsgnjxS | fminS | fmaxS | fmvWX => exact h.fpExactS
  | fsgnjD | fsgnjnD | fsgnjxD | fminD | fmaxD | fmvDX => exact h.fpExactD
  | feqS | fltS | fleS | fclassS | feqD | fltD | fleD | fclassD | fmvXW | fmvXD => exact h.fpX
  | fcvtWS | fcvtWuS | fcvtLS | fcvtLuS | fcvtWD | fcvtWuD | fcvtLD | fcvtLuD => exact h.fpToX
  | flw | cFlw | cFlwsp => exact h.fpLoadS hlen
  | fld | cFld | cFldsp => exact h.fpLoadD hlen
  | fsw | fsd | cFsw | cFsd | cFswsp | cFsdsp => exact h.fpStore hlen

/-! ## Every step -/

/-- Settles O10: a step takes an interrupt, fails to fetch, meets an illegal word, or runs an instruction, and
each keeps the invariant. -/
theorem everyStepKeepsInvariant : Obligations.EveryStepKeepsInvariant := by
  unfold Obligations.EveryStepKeepsInvariant
  intro s t hs hstep
  have hb := hs.beginStep
  rcases step_eq_next s t hstep with
    ⟨n, hn, rfl⟩ | ⟨-, ⟨e, tval, -, rfl⟩ | ⟨u, w, hfetch, hrun⟩⟩
  · exact hb.takeInterrupt hn
  · exact hb.running.takeException e tval
  · have hu := hb.running.onlyMem (State.fetch_onlyMem _ u w hfetch)
    rcases hrun with ⟨i, hi, hexec⟩ | ⟨-, rfl⟩
    · have hex := (decode_eq_instr u.cfg w i hi).1
      rw [hu.cfg] at hex
      exact exec_keepsInv hu i hex t hexec
    · exact hu.takeException .illegalInstruction _

end Sys2Proof.Machine
end

section
/-! SUPPORT. The ways an instruction can end: a trap, a retirement that leaves every privileged register alone, a CSR
instruction, `sfence.vma`, or a return from a trap. -/

namespace Sys2Proof.Machine

open Sys2Proof

/-! ## What code in any mode may change -/

/-- The state without what code in any mode may change: the registers, the pc, `fcsr` and FS, the reservation and
memory. The count of instructions stays. -/
def State.besideUser (s : State) : State :=
  { s with
    x := Vector.replicate 32 0, f := Vector.replicate 32 0, pc := 0, fflags := 0, frm := 0, resv := none
    mem := { cells := [], staleCode := [], stalePte := [] }, beforeFetch := none
    mstatus := { s.mstatus with fs := 0 } }

@[simp] theorem State.besideUser_setX (s : State) (r : Reg) (v : Word) :
    (s.setX r v).besideUser = s.besideUser := by
  unfold State.setX
  split <;> rfl

@[simp] theorem State.besideUser_setF (s : State) (r : Reg) (v : Word) :
    (s.setF r v).besideUser = s.besideUser := rfl

@[simp] theorem State.besideUser_setS (s : State) (r : Reg) (v : BitVec 32) :
    (s.setS r v).besideUser = s.besideUser := rfl

@[simp] theorem State.besideUser_accrue (s : State) (fl : FpFlags) :
    (s.accrue fl).besideUser = s.besideUser := by
  unfold State.accrue
  split <;> rfl

@[simp] theorem State.besideUser_putS (s : State) (rd : Reg) (r : FpResult) :
    (s.putS rd r).besideUser = s.besideUser := by simp [State.putS]

@[simp] theorem State.besideUser_putD (s : State) (rd : Reg) (r : FpResult) :
    (s.putD rd r).besideUser = s.besideUser := by simp [State.putD]

@[simp] theorem State.besideUser_retireAt (s : State) (target : Word) :
    (s.retireAt target).besideUser = { s.besideUser with minstret := s.minstret + 1 } := rfl

theorem OnlyMem.besideUser {s t : State} (h : OnlyMem s t) : t.besideUser = s.besideUser := by
  rw [h.same]
  rfl

/-! ## Memory accesses -/

theorem State.dataBytes_besideUser (s : State) (op : MemOp) (v : Word) (n : Nat) :
    (s.dataBytes op v n).Ensures fun p => p.1.besideUser = s.besideUser :=
  fun _ hp => (s.dataBytes_onlyMem _ _ _ _ _ hp).besideUser

theorem State.load_besideUser (s : State) (v : Word) (n : Nat) :
    (s.load v n).Ensures fun p => p.1.besideUser = s.besideUser :=
  (s.dataBytes_besideUser .load v n).bind fun _ hp => .ok hp

theorem State.store_besideUser (s : State) (v : Word) (n : Nat) (w : Word) :
    (s.store v n w).Ensures fun t => t.besideUser = s.besideUser :=
  (s.dataBytes_besideUser .store v n).bind fun _ hp => .ok hp

theorem State.loadReserve_besideUser (s : State) (v : Word) (n : Nat) :
    (s.loadReserve v n).Ensures fun p => p.1.besideUser = s.besideUser :=
  (s.dataBytes_besideUser .lr v n).bind fun _ hp => .ok hp

theorem State.amo_besideUser (s : State) (v : Word) (n : Nat) (op : Word → Word) :
    (s.amo v n op).Ensures fun p => p.1.besideUser = s.besideUser :=
  (s.dataBytes_besideUser .amo v n).bind fun _ hp => .ok hp

theorem State.storeConditional_besideUser (s : State) (v : Word) (n : Nat) (w : Word) :
    (s.storeConditional v n w).Ensures fun p => p.1.besideUser = s.besideUser := by
  have hr : (s.resolve .sc v n).Ensures fun p => p.1.besideUser = s.besideUser :=
    fun _ hp => (s.resolve_onlyMem _ _ _ _ _ hp).besideUser
  refine hr.bind fun p hp => ?_
  dsimp only
  split
  · have hm : (p.1.mainBytes p.2).Ensures fun q => q.1.besideUser = s.besideUser := fun q hq => by
      obtain ⟨e, -⟩ := State.mainBytes_eq_ok _ _ _ _ hq
      rw [e]
      exact hp
    exact hm.bind fun _ hq => .ok hq
  · exact .ok hp

/-! ## Retirement -/

/-- `t` is `s` with one instruction retired that leaves every privileged register alone. -/
def Retires (s t : State) : Prop := ∃ (u : State) (target : Word), u.besideUser = s.besideUser ∧ t = u.retireAt target

theorem Retires.of_retire {s u : State} (h : u.besideUser = s.besideUser) (len : Nat) :
    Retires s (u.retire len) := ⟨u, _, h, rfl⟩

theorem Retires.besideUser {s t : State} (h : Retires s t) :
    t.besideUser = { s.besideUser with minstret := s.minstret + 1 } := by
  obtain ⟨u, target, hu, rfl⟩ := h
  have hc : u.minstret = s.minstret := (congrArg State.minstret hu :)
  rw [State.besideUser_retireAt, hu, hc]

/-- Whatever next state the outcome is, it is a trap from `s` or an instruction retired. -/
def Ordinary (s : State) (r : Result) : Prop :=
  ∀ t, r = .next t → (∃ e tval, t = s.takeException e tval) ∨ Retires s t

theorem Ordinary.next {s t : State} (h : Retires s t) : Ordinary s (.next t) := by
  rintro _ ⟨⟩
  exact .inr h

theorem Ordinary.commit {s : State} {r : Res State} (h : r.Ensures (Retires s)) :
    Ordinary s (s.commit r) := fun t ht => by
  rcases (s.commit_eq_next t r).1 ht with e | ⟨e, tval, -, rfl⟩
  · exact .inr (h t e)
  · exact .inl ⟨e, tval, rfl⟩

theorem State.illegal_ensures {α : Type} (s : State) (i : Instr) (P : α → Prop) :
    (s.illegal i : Res α).Ensures P := .raise

theorem State.fpCheck_ensures {α : Type} {s : State} {P : α → Prop} {i : Instr} {k : Res α}
    (hk : k.Ensures P) : (s.fpCheck i k).Ensures P := by
  unfold State.fpCheck
  split
  · exact s.illegal_ensures i P
  · exact hk

theorem State.fpRounded_ensures {α : Type} {s : State} {P : α → Prop} {i : Instr} {rm : BitVec 3}
    {k : Rounding → Res α} (hk : ∀ mode, (k mode).Ensures P) : (s.fpRounded i rm k).Ensures P :=
  State.fpCheck_ensures (by
    cases s.rounding rm with
    | none => exact s.illegal_ensures i P
    | some mode => exact hk mode)

/-! ## The shapes of `Machine/Effects.lean` -/

namespace Ordinary

variable {s : State} {i : Instr} {rd rs1 rs2 : Reg} {v w target : Word} {n len : Nat} {rm : BitVec 3}

theorem putX : Ordinary s (s.putX rd v len) := .next (.of_retire (s.besideUser_setX rd v) len)

theorem branch {taken : Bool} {o : Word} : Ordinary s (s.branch taken o) := by
  unfold State.branch
  split
  · exact .commit (Res.Ensures.bind (P := fun _ => True) (fun _ _ => trivial)
      fun _ _ => .ok ⟨s, _, rfl, rfl⟩)
  · exact .next (.of_retire rfl 4)

theorem jump : Ordinary s (s.jump rd target) :=
  .commit (Res.Ensures.bind (P := fun _ => True) (fun _ _ => trivial)
    fun _ _ => .ok ⟨_, _, s.besideUser_setX rd _, rfl⟩)

theorem cBranch {taken : Bool} {o : Word} : Ordinary s (s.cBranch taken o) := by
  refine .next ?_
  split
  · exact ⟨s, _, rfl, rfl⟩
  · exact .of_retire rfl 2

theorem cJump : Ordinary s (s.cJump rd target) := .next ⟨_, _, s.besideUser_setX rd _, rfl⟩

theorem loadX {ext : Word → Word} : Ordinary s (s.loadX rd v n ext len) :=
  .commit ((s.load_besideUser v n).bind fun p hp =>
    .ok (.of_retire ((p.1.besideUser_setX rd _).trans hp) len))

theorem storeX : Ordinary s (s.storeX v n w len) :=
  .commit ((s.store_besideUser v n w).bind fun _ hp => .ok (.of_retire hp len))

theorem lrX {ext : Word → Word} : Ordinary s (s.lrX rd rs1 n ext) :=
  .commit ((s.loadReserve_besideUser _ n).bind fun p hp =>
    .ok (.of_retire ((p.1.besideUser_setX rd _).trans hp) 4))

theorem scX : Ordinary s (s.scX rd rs2 rs1 n) :=
  .commit ((s.storeConditional_besideUser _ n _).bind fun p hp =>
    .ok (.of_retire ((p.1.besideUser_setX rd _).trans hp) 4))

theorem amoX {ext : Word → Word} {op : Word → Word → Word} : Ordinary s (s.amoX rd rs2 rs1 n ext op) :=
  .commit ((s.amo_besideUser _ n _).bind fun p hp =>
    .ok (.of_retire ((p.1.besideUser_setX rd _).trans hp) 4))

theorem fpS {op : Rounding → FpResult} : Ordinary s (s.fpS i rd rm op) :=
  .commit (State.fpRounded_ensures fun _ => .ok (.of_retire (s.besideUser_putS rd _) 4))

theorem fpD {op : Rounding → FpResult} : Ordinary s (s.fpD i rd rm op) :=
  .commit (State.fpRounded_ensures fun _ => .ok (.of_retire (s.besideUser_putD rd _) 4))

theorem fpExactS {r : FpResult} : Ordinary s (s.fpExactS i rd r) :=
  .commit (State.fpCheck_ensures (.ok (.of_retire (s.besideUser_putS rd r) 4)))

theorem fpExactD {r : FpResult} : Ordinary s (s.fpExactD i rd r) :=
  .commit (State.fpCheck_ensures (.ok (.of_retire (s.besideUser_putD rd r) 4)))

theorem fpX {fl : FpFlags} : Ordinary s (s.fpX i rd v fl) :=
  .commit (State.fpCheck_ensures (.ok (.of_retire (by simp) 4)))

theorem fpToX {ty : IntType} {op : Rounding → Int × FpFlags} : Ordinary s (s.fpToX i rd rm ty op) :=
  .commit (State.fpRounded_ensures fun _ => .ok (.of_retire (by simp) 4))

theorem fpLoadS : Ordinary s (s.fpLoadS i rd v len) :=
  .commit (State.fpCheck_ensures ((s.load_besideUser v 4).bind fun p hp =>
    .ok (.of_retire ((p.1.besideUser_setS rd _).trans hp) len)))

theorem fpLoadD : Ordinary s (s.fpLoadD i rd v len) :=
  .commit (State.fpCheck_ensures ((s.load_besideUser v 8).bind fun p hp =>
    .ok (.of_retire ((p.1.besideUser_setF rd p.2).trans hp) len)))

theorem fpStore : Ordinary s (s.fpStore i rs2 v n len) :=
  .commit (State.fpCheck_ensures ((s.store_besideUser v n _).bind fun _ hp => .ok (.of_retire hp len)))

end Ordinary

/-! ## Every instruction -/

/-- The ways in which an instruction begun in `s` can end in `t`. -/
inductive Ends (s t : State) : Instr → Prop
  | trap {i : Instr} (e : Exc) (tval : Word) : t = s.takeException e tval → Ends s t i
  | retire {i : Instr} : Retires s t → Ends s t i
  | csr {i : Instr} (r : Csr) (a : BitVec 12) (rd : Reg) (writes : Bool) (newValue : Word → Word) :
      s.csrAccess a writes = some r → t = (s.csrUpdate r rd writes newValue).csrRetire r writes →
      Ends s t i
  | fence {i : Instr} (vaddr asid : Option Word) : s.priv ≠ .u →
      t = (s.fenceVma vaddr asid).retire 4 → Ends s t i
  | mret : s.priv = .m → t = s.returnFromM.count → Ends s t .mret
  | sret : s.priv ≠ .u → t = s.returnFromS.count → Ends s t .sret

theorem Ordinary.ends {s t : State} {i : Instr} {r : Result} (h : Ordinary s r) (ht : r = .next t) :
    Ends s t i := by
  rcases h t ht with ⟨e, tval, rfl⟩ | hret
  · exact .trap e tval rfl
  · exact .retire hret

theorem State.csr_ends {s t : State} {i : Instr} {a : BitVec 12} {rd : Reg} {writes : Bool}
    {newValue : Word → Word} (h : s.csr i a rd writes newValue = .next t) : Ends s t i := by
  rcases (s.commit_eq_next t _).1 h with e | ⟨e, tval, -, rfl⟩
  · obtain ⟨r, hr, rfl⟩ := s.csrInstr_eq_ok t i a rd writes newValue e
    exact .csr r a rd writes newValue hr rfl
  · exact .trap e tval rfl

/-- A privileged instruction runs where it is allowed, or traps (R163). -/
theorem State.privileged_cases {s t u : State} {i : Instr} {allowed : Bool}
    (h : s.privileged i allowed u = .next t) :
    (allowed = true ∧ t = u) ∨ ∃ e tval, t = s.takeException e tval := by
  rcases (s.commit_eq_next t _).1 h with e | ⟨e, tval, -, rfl⟩
  · split at e
    · next ha => cases e; exact .inl ⟨ha, rfl⟩
    · cases e
  · exact .inr ⟨e, tval, rfl⟩

/-- What a privileged instruction comes to, from what it does where it is allowed. -/
theorem State.privileged_ends {s t u : State} {i j : Instr} {allowed : Bool}
    (h : s.privileged i allowed u = .next t) (hrun : allowed = true → t = u → Ends s t j) : Ends s t j := by
  rcases State.privileged_cases h with ⟨ha, rfl⟩ | ⟨e, tval, rfl⟩
  · exact hrun ha rfl
  · exact .trap e tval rfl

/-- Every instruction ends in one of the ways of `Ends`, each by the shape it has. -/
theorem exec_ends {s t : State} {i : Instr} (h : exec i s = .next t) : Ends s t i := by
  cases i with
  | lui | auipc | addi | slti | sltiu | xori | ori | andi | slli | srli | srai | add | sub | sll | slt
  | sltu | xor | srl | sra | or | and | addiw | slliw | srliw | sraiw | addw | subw | sllw | srlw | sraw
  | mul | mulh | mulhsu | mulhu | div | divu | rem | remu | mulw | divw | divuw | remw | remuw
  | cAddi4spn | cAddi | cAddiw | cLi | cAddi16sp | cLui | cSrli | cSrai | cAndi | cSub | cXor | cOr | cAnd
  | cSubw | cAddw | cSlli | cMv | cAdd => exact Ordinary.putX.ends h
  | beq | bne | blt | bge | bltu | bgeu => exact Ordinary.branch.ends h
  | jal | jalr => exact Ordinary.jump.ends h
  | cBeqz | cBnez => exact Ordinary.cBranch.ends h
  | cJ | cJal | cJr | cJalr => exact Ordinary.cJump.ends h
  | lb | lh | lw | lbu | lhu | lwu | ld | cLw | cLd | cLwsp | cLdsp => exact Ordinary.loadX.ends h
  | sb | sh | sw | sd | cSw | cSd | cSwsp | cSdsp => exact Ordinary.storeX.ends h
  | lrW | lrD => exact Ordinary.lrX.ends h
  | scW | scD => exact Ordinary.scX.ends h
  | amoswapW | amoaddW | amoxorW | amoandW | amoorW | amominW | amomaxW | amominuW | amomaxuW
  | amoswapD | amoaddD | amoxorD | amoandD | amoorD | amominD | amomaxD | amominuD | amomaxuD =>
    unfold exec at h
    exact Ordinary.amoX.ends h
  | csrrw | csrrs | csrrc | csrrwi | csrrsi | csrrci => exact State.csr_ends h
  | ecall | ebreak | cEbreak => exact (Ordinary.commit (s := s) .raise).ends h
  | fence => exact (Ordinary.next (.of_retire rfl 4)).ends h
  | fenceI =>
    exact (Ordinary.next (s := s) (.of_retire (u := { s with mem := s.mem.fenceCode }) rfl 4)).ends h
  | wfi => exact State.privileged_ends h fun _ e => .retire (e ▸ .of_retire rfl 4)
  | sfenceVma =>
    exact State.privileged_ends h fun ha e => .fence _ _ (fun hu => by simp [hu] at ha) e
  | mret => exact State.privileged_ends h fun ha e => .mret (by simpa using ha) e
  | sret => exact State.privileged_ends h fun ha e => .sret (fun hu => by simp [hu] at ha) e
  | faddS | fsubS | fmulS | fdivS | fsqrtS | fmaddS | fmsubS | fnmsubS | fnmaddS | fcvtSW | fcvtSWu
  | fcvtSL | fcvtSLu | fcvtSD => exact Ordinary.fpS.ends h
  | faddD | fsubD | fmulD | fdivD | fsqrtD | fmaddD | fmsubD | fnmsubD | fnmaddD | fcvtDW | fcvtDWu
  | fcvtDL | fcvtDLu | fcvtDS => exact Ordinary.fpD.ends h
  | fsgnjS | fsgnjnS | fsgnjxS | fminS | fmaxS | fmvWX => exact Ordinary.fpExactS.ends h
  | fsgnjD | fsgnjnD | fsgnjxD | fminD | fmaxD | fmvDX => exact Ordinary.fpExactD.ends h
  | feqS | fltS | fleS | fclassS | feqD | fltD | fleD | fclassD | fmvXW | fmvXD =>
    exact Ordinary.fpX.ends h
  | fcvtWS | fcvtWuS | fcvtLS | fcvtLuS | fcvtWD | fcvtWuD | fcvtLD | fcvtLuD =>
    exact Ordinary.fpToX.ends h
  | flw | cFlw | cFlwsp => exact Ordinary.fpLoadS.ends h
  | fld | cFld | cFldsp => exact Ordinary.fpLoadD.ends h
  | fsw | fsd | cFsw | cFsd | cFswsp | cFsdsp => exact Ordinary.fpStore.ends h

end Sys2Proof.Machine
end

section
/-! SUPPORT. What a CSR's address says of it (R31, R33): who may access it, and which of the extra conditions it has. -/

namespace Sys2Proof.Machine

open Sys2Proof

/-- The views of `fcsr` (R34). -/
def Csr.isFloat : Csr → Bool
  | .fflags | .frm | .fcsr => true
  | _ => false

/-- The bit of `mcounteren` and `scounteren` that a counter's user view needs (R37). -/
def Csr.counterBit : Csr → Option Nat
  | .cycle | .cycleh => some 0
  | .time | .timeh => some 1
  | .instret | .instreth => some 2
  | .hpmcounter n => some n
  | _ => none

/-- What the rows of R33 have in common: where the views of `fcsr`, `satp` and the counters' views are, and that
only the views of `fcsr` can be written in U-mode. -/
def Csr.fitsAddress (r : Csr) (a : Nat) : Bool :=
  (r.isFloat == decide (a ∈ [1, 2, 3])) && ((r == .satp) == decide (a = 0x180)) &&
    (r.counterBit == if a / 32 = 0x60 ∨ a / 32 = 0x64 then some (a % 32) else none) &&
    (decide (a / 256 % 4 ≠ 0 ∨ a / 1024 = 3) || r.isFloat)

/-- The block of 32 addresses that an address is in, as a number. -/
theorem addressBlock_toNat (a : BitVec 12) : (a.extractLsb' 5 7).toNat = a.toNat / 32 := by
  have := a.isLt
  rw [BitVec.extractLsb'_toNat, Nat.shiftRight_eq_div_pow]
  omega

theorem addressIndex_toNat (a : BitVec 12) : (a.extractLsb' 0 5).toNat = a.toNat % 32 := by
  rw [BitVec.extractLsb'_toNat]
  rfl

/-- A counter's view sits in one of its two blocks, at its number. -/
theorem Csr.hpmcounter_fitsAddress {a : Nat} (h : a / 32 = 0x60 ∨ a / 32 = 0x64) :
    (Csr.hpmcounter (a % 32)).fitsAddress a = true := by
  have h1 : a ∉ [1, 2, 3] := by simp; omega
  have h2 : a ≠ 0x180 := by omega
  have h3 : a / 1024 = 3 := by omega
  simp [Csr.fitsAddress, Csr.isFloat, Csr.counterBit, h, h1, h2, h3]

/-- The machine-level counters and event selectors sit in blocks of M-mode. -/
theorem Csr.hardwired_fitsAddress {a : Nat} (h : a / 32 = 0x19 ∨ a / 32 = 0x58 ∨ a / 32 = 0x5C) :
    Csr.hardwired.fitsAddress a = true := by
  have h1 : a ∉ [1, 2, 3] := by simp; omega
  have h2 : a ≠ 0x180 := by omega
  have h3 : a / 256 % 4 ≠ 0 := by omega
  have h4 : ¬ (a / 32 = 0x60 ∨ a / 32 = 0x64) := by omega
  simp [Csr.fitsAddress, Csr.isFloat, Csr.counterBit, h1, h2, h3, h4]

theorem hpmAt_fitsAddress {c : Config} {a : BitVec 12} {r : Csr} (h : hpmAt c a = some r) :
    r.fitsAddress a.toNat = true := by
  have hb := addressBlock_toNat a
  unfold hpmAt at h
  rw [addressIndex_toNat] at h
  dsimp only at h
  split at h
  · cases h
  · split at h
    · next hk => cases h; exact Csr.hpmcounter_fitsAddress (.inl (by rw [← hb, hk]; rfl))
    · next hk =>
      obtain ⟨-, rfl⟩ := existsIf_eq_some h
      exact Csr.hpmcounter_fitsAddress (.inr (by rw [← hb, hk]; rfl))
    · next hk => cases h; exact Csr.hardwired_fitsAddress (.inl (by rw [← hb, hk]; rfl))
    · next hk => cases h; exact Csr.hardwired_fitsAddress (.inr (.inl (by rw [← hb, hk]; rfl)))
    · next hk =>
      obtain ⟨-, rfl⟩ := existsIf_eq_some h
      exact Csr.hardwired_fitsAddress (.inr (.inr (by rw [← hb, hk]; rfl)))
    · cases h

/-- Every row of R33 fits its address: a row in every configuration, one under a condition, or one of the
performance-monitor rows. -/
theorem csrAt_fitsAddress {c : Config} {a : BitVec 12} {r : Csr} (h : csrAt c a = some r) :
    r.fitsAddress a.toNat = true := by
  unfold csrAt at h
  dsimp only at h
  split at h
  all_goals first
    | (cases h; rfl)
    | (obtain ⟨-, rfl⟩ := existsIf_eq_some h; rfl)
    | exact hpmAt_fitsAddress h

theorem beq_decide_iff (b : Bool) (p : Prop) [Decidable p] : (b == decide p) = true ↔ (b = true ↔ p) := by
  cases b <;> simp

/-- The parts of `Csr.fitsAddress`. -/
theorem Csr.fitsAddress_iff (r : Csr) (a : Nat) : r.fitsAddress a = true ↔
    (r.isFloat = true ↔ a ∈ [1, 2, 3]) ∧ (r = .satp ↔ a = 0x180) ∧
      r.counterBit = (if a / 32 = 0x60 ∨ a / 32 = 0x64 then some (a % 32) else none) ∧
      (a / 256 % 4 = 0 → a / 1024 ≠ 3 → r.isFloat = true) := by
  unfold Csr.fitsAddress
  rw [Bool.and_eq_true, Bool.and_eq_true, Bool.and_eq_true, beq_decide_iff, beq_decide_iff, beq_iff_eq,
    beq_iff_eq, Bool.or_eq_true, decide_eq_true_eq]
  tauto

theorem csrLevel_eq (a : BitVec 12) :
    csrLevel a = if a.toNat / 256 % 4 = 2 then 3 else a.toNat / 256 % 4 := by
  unfold csrLevel
  rw [BitVec.extractLsb'_toNat, Nat.shiftRight_eq_div_pow]

theorem csrReadOnly_iff (a : BitVec 12) : csrReadOnly a = true ↔ a.toNat / 1024 = 3 := by
  have := a.isLt
  unfold csrReadOnly
  rw [beq_iff_eq, ← BitVec.toNat_inj, BitVec.extractLsb'_toNat, Nat.shiftRight_eq_div_pow]
  simp only [BitVec.toNat_ofNat]
  omega

/-- U-mode may write no CSR but the views of `fcsr` (R31, R33). -/
theorem State.csrAccess_user_writes {s : State} {a : BitVec 12} {r : Csr} (hu : s.priv = .u)
    (h : s.csrAccess a true = some r) : r.isFloat = true := by
  obtain ⟨hlevel, hwrite, hat, -⟩ := (s.csrAccess_eq_some a true r).1 h
  have hro : a.toNat / 1024 ≠ 3 := fun e => by
    rw [(csrReadOnly_iff a).2 e] at hwrite
    exact Bool.noConfusion (hwrite rfl)
  obtain ⟨-, -, -, huser⟩ := (r.fitsAddress_iff _).1 (csrAt_fitsAddress hat)
  refine huser ?_ hro
  rw [hu, csrLevel_eq] at hlevel
  simp only [Priv.code] at hlevel
  split at hlevel <;> omega

/-- A write to a view of `fcsr` leaves every privileged register alone. -/
theorem State.csrWrite_float (s : State) {r : Csr} (hr : r.isFloat = true) (v : Word) :
    (s.csrWrite r v).besideUser = s.besideUser := by
  cases r with
  | fflags | frm | fcsr => rfl
  | _ => cases hr

end Sys2Proof.Machine
end

section
/-! What an instruction and a step can do to the mode and to what a lower mode must leave alone. -/

namespace Sys2Proof.Machine

open Sys2Proof

/-! ## The mode -/

/-- A CSR instruction stays in its mode. -/
theorem State.csrInstr_priv (s : State) (r : Csr) (rd : Reg) (writes : Bool) (newValue : Word → Word) :
    ((s.csrUpdate r rd writes newValue).csrRetire r writes).priv = s.priv := by
  obtain ⟨-, -, -, -, hpriv, -⟩ :=
    s.csrWrite_frame r (s.cfg.xlen.norm (newValue (s.csrBase r)))
  have hu : (s.csrUpdate r rd writes newValue).priv = s.priv := by
    unfold State.csrUpdate
    rw [State.setX_priv]
    split
    · exact hpriv
    · rfl
  unfold State.csrRetire
  split <;> exact hu

/-- An exception's handler does not depend on the code: only an interrupt is vectored (R43). -/
theorem State.handler_exception (s : State) (tvec : Word) (code : Nat) :
    s.handler tvec false code = s.handler tvec false 0 := rfl

/-- Where an exception goes, and the pc it saves (R399, R400). -/
theorem State.takeException_mode (s : State) (e : Exc) (tval : Word) :
    let t := s.takeException e tval
    (t.priv = .m ∧ t.mepc = epcMask s.cfg s.pc ∧ t.pc.toNat = s.handler s.mtvec false 0) ∨
      (t.priv = .s ∧ s.priv ≠ .m ∧ t.sepc = epcMask s.cfg s.pc ∧
        t.pc.toNat = s.handler s.stvec false 0) := by
  have hs := vectorTarget_toNat s s.stvec false e.code
  have hm := vectorTarget_toNat s s.mtvec false e.code
  unfold State.takeException State.trapEntry
  dsimp only
  split
  · next hd =>
    have hg : s.goesToS e.code := (s.discardFetch.delegated_exception e.code).1 hd
    exact .inr ⟨rfl, hg.2.1, rfl, hs⟩
  · exact .inl ⟨rfl, rfl, hm⟩

/-- Settles O43: of the ways an instruction can end, only the trap and the two returns change the mode. -/
theorem modeChangesOnlyByTrapsAndReturns : Obligations.ModeChangesOnlyByTrapsAndReturns := by
  unfold Obligations.ModeChangesOnlyByTrapsAndReturns
  intro i s t h hne
  cases exec_ends h with
  | trap e tval ht =>
    subst ht
    exact .inr (.inr (s.takeException_mode e tval))
  | retire hr => exact absurd (congrArg State.priv hr.besideUser :) hne
  | csr r a rd writes newValue _ ht =>
    subst ht
    exact absurd (s.csrInstr_priv r rd writes newValue) hne
  | fence vaddr asid _ ht =>
    subst ht
    exact absurd rfl hne
  | mret hp ht =>
    subst ht
    exact .inl ⟨rfl, hp, rfl⟩
  | sret hp ht =>
    subst ht
    exact .inr (.inl ⟨rfl, hp, rfl⟩)

/-! ## U-mode -/

/-- A trap, by an exception or an interrupt, leaves U-mode. -/
theorem State.trapEntry_priv_ne_user (s : State) (interrupt : Bool) (code : Nat) (epc tval : Word) :
    (s.trapEntry interrupt code epc tval).priv ≠ .u := by
  unfold State.trapEntry
  dsimp only
  split <;> exact Priv.noConfusion

/-- A CSR instruction of U-mode leaves every privileged register alone and is counted. -/
theorem State.csrInstr_user {s : State} (hu : s.priv = .u) {r : Csr} {a : BitVec 12} {writes : Bool}
    (h : s.csrAccess a writes = some r) (rd : Reg) (newValue : Word → Word) :
    Retires s ((s.csrUpdate r rd writes newValue).csrRetire r writes) := by
  cases writes with
  | false => exact .of_retire (s.besideUser_setX rd _) 4
  | true =>
    have hf := State.csrAccess_user_writes hu h
    have hb : (s.csrUpdate r rd true newValue).besideUser = s.besideUser :=
      (State.besideUser_setX _ rd _).trans (s.csrWrite_float hf _)
    cases r with
    | fflags | frm | fcsr => exact .of_retire hb 4
    | _ => cases hf

/-- An instruction of U-mode that takes no trap retires and leaves every privileged register alone. -/
theorem exec_user {s t : State} {i : Instr} (hu : s.priv = .u) (h : exec i s = .next t)
    (ht : t.priv = .u) : Retires s t := by
  cases exec_ends h with
  | trap e tval ht' =>
    subst ht'
    exact absurd ht (State.trapEntry_priv_ne_user _ _ _ _ _)
  | retire hr => exact hr
  | csr r a rd writes newValue ha ht' =>
    subst ht'
    exact State.csrInstr_user hu ha rd newValue
  | fence _ _ hp => exact absurd hu hp
  | mret hp => rw [hu] at hp; cases hp
  | sret hp => exact absurd hu hp

/-- The start of a step changes the number of the step, the environment's inputs and the reservation alone. -/
theorem State.beginStep_besideUser (s : State) : s.beginStep.besideUser =
    { s.besideUser with tick := s.tick + 1, env := s.beginStep.env, irq := s.beginStep.irq } := by
  unfold State.beginStep
  split
  · next he => simp [State.besideUser, he]
  · rfl

/-- A step whose instruction retires in U-mode leaves what a lower mode must leave alone. -/
theorem Retires.samePrivileged {s u t : State} (hu : u.besideUser = s.beginStep.besideUser)
    (h : Retires u t) : SamePrivileged s t := by
  have hc : u.minstret = s.minstret := by
    have := (congrArg State.minstret hu :)
    exact this.trans s.beginStep_minstret
  have key : t.besideUser = { s.besideUser with
      tick := s.tick + 1, env := s.beginStep.env, irq := s.beginStep.irq, minstret := s.minstret + 1 } := by
    rw [h.besideUser, hu, hc, s.beginStep_besideUser]
  have field {α : Type} (f : State → α) : f t.besideUser = f _ := congrArg f key
  exact {
    cfg := field State.cfg
    mstatus := congrArg (fun m : Mstatus => { m with fs := s.mstatus.fs }) (field State.mstatus)
    vectors := ⟨field State.mtvec, field State.stvec⟩
    delegation := ⟨field State.medeleg, field State.mideleg⟩
    interrupts := ⟨field State.mie, field State.ssip, field State.stip, field State.seipSw⟩
    counterEnables := ⟨field State.mcounteren, field State.scounteren⟩
    machineTrap := ⟨field State.mscratch, field State.mepc, field State.mcause, field State.mtval⟩
    supervisorTrap := ⟨field State.sscratch, field State.sepc, field State.scause, field State.stval⟩
    translation := ⟨field State.satp, field State.staleSatp⟩
    counters := ⟨field State.mcycle, field State.mcycleFrom, field State.minstret⟩
    inputs := field State.irq }

/-- Settles O42: a step that stays in U-mode takes no trap, so it runs an instruction that retires, after a fetch
that changes memory alone. -/
theorem userModeLeavesPrivilegedState : Obligations.UserModeLeavesPrivilegedState := by
  unfold Obligations.UserModeLeavesPrivilegedState
  intro s t hs hstep ht
  rcases step_eq_next s t hstep with
    ⟨n, -, rfl⟩ | ⟨-, ⟨e, tval, -, rfl⟩ | ⟨u, w, hfetch, hrun⟩⟩
  · exact absurd ht (State.trapEntry_priv_ne_user _ _ _ _ _)
  · exact absurd ht (State.trapEntry_priv_ne_user _ _ _ _ _)
  · have hu := (State.fetch_onlyMem _ u w hfetch).besideUser
    rcases hrun with ⟨i, -, hexec⟩ | ⟨-, rfl⟩
    · have hpriv : u.priv = s.beginStep.priv := (congrArg State.priv hu :)
      have hmode : u.priv = .u := by rw [hpriv, State.beginStep_priv, hs]
      exact Retires.samePrivileged hu (exec_user hmode hexec ht)
    · exact absurd ht (State.trapEntry_priv_ne_user _ _ _ _ _)

end Sys2Proof.Machine
end

section
/-! Register writes (R19, R27), misaligned targets (R24, R140), `lr` and `sc` (R195, R196), and the loads and stores of
the floating-point registers (R245, R260, R277, R287). -/

namespace Sys2Proof.Machine

open Sys2Proof

/-! ## Registers -/

/-- Settles O11: what `setX` leaves in x0, in the register written and in every other. -/
theorem registerZeroIsHardwired : Obligations.RegisterZeroIsHardwired := by
  unfold Obligations.RegisterZeroIsHardwired
  intro s v
  refine ⟨s.ux_zero, rfl, fun r hr => ⟨?_, fun q hq => s.ux_setX_other r q v hq⟩⟩
  rw [State.ux_setX_self, if_neg hr]

/-- The register a single-precision write leaves (R27). -/
theorem State.getF_setS_self (s : State) (r : Reg) (v : BitVec 32) :
    (s.setS r v).getF r = if s.cfg.flen64 then 0xFFFFFFFF#32 ++ v else v.setWidth 64 := by
  unfold State.setS
  rw [State.getF_setF, if_pos rfl]
  split
  · rfl
  · ext i hi
    simp

/-- The low word of a register, in the two ways the model and the statements write it. -/
theorem setWidth_eq_lowWord (w : Word) : w.setWidth 32 = w.extractLsb' 0 32 :=
  BitVec.eq_of_toNat_eq (by simp)

/-- Settles O52: the register written by `setS`, and what `getS` reads, for each FLEN. -/
theorem singleNumbersAreBoxed : Obligations.SingleNumbersAreBoxed := by
  unfold Obligations.SingleNumbersAreBoxed
  intro s r v
  constructor
  · intro h
    refine ⟨by rw [State.getF_setS_self, if_pos h], ?_⟩
    unfold State.getS
    rw [if_pos h, setWidth_eq_lowWord]
    rfl
  · intro h
    have h' : ¬ s.cfg.flen64 = true := ne_true_of_eq_false h
    constructor
    · rw [State.getF_setS_self, if_neg h', ← setWidth_eq_lowWord]
      exact BitVec.setWidth_setWidth_of_le v (by decide) |>.trans v.setWidth_eq
    · unfold State.getS
      rw [if_neg h', setWidth_eq_lowWord]

/-! ## Scaled offsets (R90, R92, R99) -/

theorem append_zeros_toInt {n : Nat} (imm : BitVec n) (k : Nat) :
    (imm ++ 0#k).toInt = imm.toInt * 2 ^ k := by
  rw [← BitVec.toInt_shiftLeftZeroExtend]
  congr 1
  exact BitVec.eq_of_toNat_eq (by simp [BitVec.shiftLeftZeroExtend])

/-- A branch or jump offset is its field, doubled. -/
theorem doubled_toInt {n : Nat} (imm : BitVec n) (h : n < 64) :
    ((imm ++ 0#1).signExtend 64).toInt = 2 * imm.toInt := by
  rw [BitVec.toInt_signExtend_of_le (by omega), append_zeros_toInt]
  omega

/-- The offset of a compressed load or store is its field, scaled. -/
theorem scaled_toInt {n : Nat} (imm : BitVec n) (k : Nat) (h : n + k < 64) :
    ((imm ++ 0#k).setWidth 64).toInt = (2 ^ k * imm.toNat : Nat) := by
  have hlt : (imm ++ 0#k).toNat < 2 ^ 63 :=
    lt_of_lt_of_le (imm ++ 0#k).isLt (Nat.pow_le_pow_right (by decide) (by omega))
  have hval : (imm ++ 0#k).toNat = 2 ^ k * imm.toNat := by
    simp [Nat.shiftLeft_eq, Nat.mul_comm]
  rw [BitVec.toInt_eq_toNat_cond, BitVec.toNat_setWidth, Nat.mod_eq_of_lt (by omega), if_pos (by omega), hval]

theorem imm12_toInt (imm : BitVec 12) : (imm12 imm).toInt = imm.toInt :=
  BitVec.toInt_signExtend_of_le (by decide)

/-- The target of a branch or jump relative to the pc (R140). -/
theorem State.pcPlus_doubled (s : State) {n : Nat} (imm : BitVec n) (h : n < 64) :
    (s.pcPlus ((imm ++ 0#1).signExtend 64)).toNat = s.wrap (s.pc.toNat + 2 * imm.toInt) := by
  rw [State.pcPlus_toNat, doubled_toInt imm h]

/-- The target of `jalr` (R148). -/
theorem State.jalrTarget_toNat (s : State) (rs1 : Reg) (imm : BitVec 12) :
    (clearBit0 (s.addrPlus rs1 (imm12 imm))).toNat = s.dataAddress rs1 imm.toInt / 2 * 2 := by
  unfold clearBit0
  rw [clearOne_toNat, State.addrPlus_toNat, imm12_toInt]

/-! ## Misaligned targets -/

/-- The equality test of `beq` and `bne`. -/
theorem State.getX_beq (s : State) (r q : Reg) : (s.getX r == s.getX q) = decide (s.ux r = s.ux q) := by
  rw [beq_eq_decide, decide_eq_decide]
  exact BitVec.toNat_inj.symm

/-- The test of `blt` and `bge` compares the registers as two's complement numbers. -/
theorem State.ltSigned_getX (s : State) (r q : Reg) :
    ltSigned s.cfg.xlen (s.getX r) (s.getX q) = decide (s.sx r < s.sx q) := by
  unfold ltSigned
  rw [BitVec.slt_eq_decide, ← s.signedView_getX, ← s.signedView_getX]
  rfl

/-- The test of `bltu` and `bgeu` compares the registers as unsigned numbers. -/
theorem State.ltUnsigned_getX (s : State) (r q : Reg) :
    ltUnsigned s.cfg.xlen (s.getX r) (s.getX q) = decide (s.ux r < s.ux q) := by
  unfold ltUnsigned
  rw [BitVec.ult_eq_decide, s.norm_getX, s.norm_getX]
  rfl

/-- A branch that is taken to a misaligned target traps on itself (R140). -/
theorem State.branch_traps (s : State) (hs : AtInstruction s) (imm : BitVec 12) {taken : Bool}
    (ht : taken = true) (h : s.wrap (s.pc.toNat + 2 * imm.toInt) % s.cfg.ialignBytes ≠ 0) :
    ∃ t, s.branch taken (branchOffset imm) = .next t ∧
      Trapped s t 0 (s.wrap (s.pc.toNat + 2 * imm.toInt)) := by
  have htarget : (s.pcPlus (branchOffset imm)).toNat = s.wrap (s.pc.toNat + 2 * imm.toInt) :=
    s.pcPlus_doubled imm (by decide)
  rw [← htarget] at h ⊢
  rw [ht, s.branch_misaligned _ h]
  exact ⟨_, rfl, s.takeException_trapped _ _ hs (s.pcPlus_lt _)⟩

/-- A jump to a misaligned target traps on itself (R140). -/
theorem State.jump_traps (s : State) (hs : AtInstruction s) (rd : Reg) {target : Word} {n : Nat}
    (hf : target.toNat < s.modulus) (hn : target.toNat = n) (h : n % s.cfg.ialignBytes ≠ 0) :
    ∃ t, s.jump rd target = .next t ∧ Trapped s t 0 n := by
  subst hn
  rw [s.jump_misaligned rd target h]
  exact ⟨_, rfl, s.takeException_trapped _ _ hs hf⟩

/-- Settles O19: each jump, and each branch under its condition, comes to the target and finds it misaligned. -/
theorem misalignedTargetsTrap : Obligations.MisalignedTargetsTrap := by
  unfold Obligations.MisalignedTargetsTrap
  intro s hs rd rs1 rs2 off imm
  refine ⟨s.jump_traps hs rd (s.pcPlus_lt _) (s.pcPlus_doubled off (by decide)),
    s.jump_traps hs rd (lt_of_le_of_lt (clearBit0_le _) (s.addrPlus_lt _ _)) (s.jalrTarget_toNat rs1 imm),
    fun h => ⟨fun hc => ?_, fun hc => ?_, fun hc => ?_, fun hc => ?_, fun hc => ?_, fun hc => ?_⟩⟩
  case refine_1 => exact s.branch_traps hs imm (by rw [s.getX_beq]; exact decide_eq_true hc) h
  case refine_2 =>
    exact s.branch_traps hs imm (by rw [bne, s.getX_beq, decide_eq_false hc]; rfl) h
  case refine_3 => exact s.branch_traps hs imm (by rw [s.ltSigned_getX]; exact decide_eq_true hc) h
  case refine_4 =>
    exact s.branch_traps hs imm (by rw [s.ltSigned_getX, decide_eq_false (not_lt.2 hc)]; rfl) h
  case refine_5 => exact s.branch_traps hs imm (by rw [s.ltUnsigned_getX]; exact decide_eq_true hc) h
  case refine_6 =>
    exact s.branch_traps hs imm (by rw [s.ltUnsigned_getX, decide_eq_false (not_lt.2 hc)]; rfl) h

/-! ## `lr` and `sc` -/

/-- A result in `x[rd]` from a state that differs in the reservation and in memory (R195, R196). -/
theorem ReservationDone.of_putX (s : State) (rd : Reg) (v : Word) (n : Int) (m : Mem)
    (resv : Option Reservation) (h : s.wrap v.toNat = s.wrap n) :
    ∃ t, State.putX { s with mem := m, resv := resv } rd v 4 = .next t ∧
      ReservationDone s t rd n resv ∧ t.mem = m := by
  let u : State := { s with mem := m, resv := resv }
  obtain ⟨t, ht, hw⟩ := u.putX_computes rd v n 4 h
  have hmem : t.mem = m := by
    cases ht
    exact u.setX_mem rd v
  have hresv : t.resv = resv := by
    cases ht
    exact u.setX_resv rd v
  exact ⟨t, ht, {
    pc := hw.pc
    counted := hw.counted
    value := hw.value
    others := hw.others
    resv := hresv
    beside := congrArg (fun w => w.besideMem.besideResv) hw.beside }, hmem⟩

/-- `lr` on an access that every check allows (R195). -/
theorem State.lrX_done (s : State) (rd rs1 : Reg) (n : Nat) (ext : Word → Word) (p : Nat) (v : Int)
    (hn : 0 < n) (h : Reaches s .lr (s.ux rs1) n p)
    (hv : s.wrap (ext (BitVec.ofNat 64 (s.bytesAt p n))).toNat = s.wrap v) :
    ∃ t, s.lrX rd rs1 n ext = .next t ∧
      ReservationDone s t rd v (some { addr := p, size := n }) ∧ t.mem = s.mem := by
  rw [s.lrX_reaches rd rs1 n ext hn p h]
  exact ReservationDone.of_putX s rd _ v s.mem _ hv

/-- `sc` that finds no reservation on these bytes, or that the environment lets fail (R196 step 4). -/
theorem State.scX_fails (s : State) (rd rs2 rs1 : Reg) (n p : Nat) (hn : 0 < n)
    (h : Reaches s .sc (s.ux rs1) n p) (hf : s.scSucceeds p n = false) :
    ∃ t, s.scX rd rs2 rs1 n = .next t ∧ ReservationDone s t rd 1 none ∧ t.mem = s.mem := by
  rw [s.scX_reaches rd rs2 rs1 n hn p h, if_neg (ne_true_of_eq_false hf)]
  exact ReservationDone.of_putX s rd 1 1 s.mem none rfl

/-- `sc` that succeeds (R196 step 3). -/
theorem State.scX_stores (s : State) (rd rs2 rs1 : Reg) (n p : Nat) (hn : 0 < n)
    (h : Reaches s .sc (s.ux rs1) n p) (hf : s.scSucceeds p n = true) :
    ∃ t, s.scX rd rs2 rs1 n = .next t ∧ ReservationDone s t rd 0 none ∧ StoredBytes s t p n (s.ux rs2) := by
  rw [s.scX_reaches rd rs2 rs1 n hn p h, if_pos hf]
  obtain ⟨t, ht, hdone, hmem⟩ :=
    ReservationDone.of_putX s rd 0 0 (s.mem.writeAll (bytesFrom p n) (s.ux rs2)) none rfl
  exact ⟨t, ht, hdone, StoredBytes.of_writeAll s p n _ t hmem⟩

theorem State.scSucceeds_unheld {s : State} {p n : Nat}
    (h : ¬ s.resv = some { addr := p, size := n }) : s.scSucceeds p n = false := by
  simp [State.scSucceeds, h]

theorem State.scSucceeds_held {s : State} {p n : Nat} (h : s.resv = some { addr := p, size := n })
    (hf : s.cfg.scSpuriousFail = false) : s.scSucceeds p n = true := by
  simp [State.scSucceeds, h, hf]

/-- The value `lr.w` puts in the register: the word at `p`, sign-extended. -/
theorem State.wrap_sextW_bytes (s : State) (p : Nat) :
    s.wrap (sextW (BitVec.ofNat 64 (s.bytesAt p 4))).toNat = s.wrap (signedBytes 4 (s.bytesAt p 4)) := by
  have hlt := s.bytesAt_lt p 4
  rw [← s.wrap_toInt]
  unfold sextW signedBytes
  rw [BitVec.toInt_signExtend_of_le (by decide), BitVec.toInt_eq_toNat_bmod, BitVec.toNat_setWidth,
    BitVec.toNat_ofNat, Nat.mod_eq_of_lt (by omega), Nat.mod_eq_of_lt (by omega)]
  rfl

/-- The value `lr.d` puts in the register: the doubleword at `p`. -/
theorem State.wrap_bytes (s : State) (p n : Nat) (h : 256 ^ n ≤ 2 ^ 64) :
    s.wrap (BitVec.ofNat 64 (s.bytesAt p n)).toNat = s.wrap (s.bytesAt p n) := by
  rw [BitVec.toNat_ofNat, Nat.mod_eq_of_lt (lt_of_lt_of_le (s.bytesAt_lt p n) h)]

/-- Settles O27: `lr` by its value, `sc` by whether it succeeds, for words and doublewords. -/
theorem loadReservedStoreConditionalResults : Obligations.LoadReservedStoreConditionalResults := by
  unfold Obligations.LoadReservedStoreConditionalResults
  intro s rd rs2 rs1 aq rl p
  have hsc (n : Nat) (hn : 0 < n) (h : Reaches s .sc (s.ux rs1) n p)
      (held : s.resv = some { addr := p, size := n }) :
      (∃ t, s.scX rd rs2 rs1 n = .next t ∧ ReservationDone s t rd 0 none ∧
          StoredBytes s t p n (s.ux rs2)) ∨
        ∃ t, s.scX rd rs2 rs1 n = .next t ∧ ReservationDone s t rd 1 none ∧ t.mem = s.mem := by
    cases hf : s.scSucceeds p n with
    | true => exact .inl (s.scX_stores rd rs2 rs1 n p hn h hf)
    | false => exact .inr (s.scX_fails rd rs2 rs1 n p hn h hf)
  refine ⟨fun h => ?_, fun h => ?_, fun h => ⟨fun hn => ?_, fun hh hf => ?_, hsc 4 (by decide) h⟩,
    fun h => ⟨fun hn => ?_, fun hh hf => ?_, hsc 8 (by decide) h⟩⟩
  · exact s.lrX_done rd rs1 4 sextW p _ (by decide) h (s.wrap_sextW_bytes p)
  · exact s.lrX_done rd rs1 8 zext p _ (by decide) h (s.wrap_bytes p 8 (by decide))
  · exact s.scX_fails rd rs2 rs1 4 p (by decide) h (State.scSucceeds_unheld hn)
  · exact s.scX_stores rd rs2 rs1 4 p (by decide) h (State.scSucceeds_held hh hf)
  · exact s.scX_fails rd rs2 rs1 8 p (by decide) h (State.scSucceeds_unheld hn)
  · exact s.scX_stores rd rs2 rs1 8 p (by decide) h (State.scSucceeds_held hh hf)

/-! ## Loads and stores of the floating-point registers -/

/-- The boxed bits of a single-precision number, from the register `setS` writes (R27). -/
theorem State.boxed_toNat (s : State) (b : BitVec 32) :
    (let w : Word := if s.cfg.flen64 then 0xFFFFFFFF#32 ++ b else b.setWidth 64
     if s.cfg.flen64 then w.toNat else w.toNat % 2 ^ 32) = s.boxed b.toNat := by
  have hb := b.isLt
  unfold State.boxed
  cases s.cfg.flen64 with
  | true =>
    simp only [if_true, BitVec.toNat_append]
    rw [← Nat.shiftLeft_add_eq_or_of_lt hb, Nat.shiftLeft_eq]
    rfl
  | false => simp; omega

/-- A single-precision load that every check allows (R245). -/
theorem State.fpLoadS_done (s : State) (i : Instr) (rd : Reg) (v : Word) (len p : Nat) {a : Nat}
    (hf : s.mstatus.fs ≠ 0) (hlen : len < 2 ^ 63) (ha : v.toNat = a) (h : Reaches s .load a 4 p) :
    ∃ t, s.fpLoadS i rd v len = .next t ∧ WroteF s t rd (s.boxed (s.bytesAt p 4)) 0 len := by
  subst ha
  have hlt := s.bytesAt_lt p 4
  have hw : ((BitVec.ofNat 64 (s.bytesAt p 4)).setWidth 32).toNat = s.bytesAt p 4 := by
    rw [BitVec.toNat_setWidth, BitVec.toNat_ofNat]
    omega
  rw [s.fpLoadS_reaches i rd v len hf p h]
  have hbox := s.boxed_toNat ((BitVec.ofNat 64 (s.bytesAt p 4)).setWidth 32)
  rw [hw] at hbox
  exact ⟨_, rfl, hbox ▸ WroteF.of_setF s rd _ 0 len hlen⟩

/-- A double-precision load that every check allows (R277). -/
theorem State.fpLoadD_done (s : State) (i : Instr) (rd : Reg) (v : Word) (len p : Nat) {a : Nat}
    (hf : s.mstatus.fs ≠ 0) (hlen : len < 2 ^ 63) (ha : v.toNat = a) (hd : s.cfg.extD = true)
    (h : Reaches s .load a 8 p) :
    ∃ t, s.fpLoadD i rd v len = .next t ∧ WroteF s t rd (s.bytesAt p 8) 0 len := by
  subst ha
  have hlt := s.bytesAt_lt p 8
  have hw : (BitVec.ofNat 64 (s.bytesAt p 8)).toNat = s.bytesAt p 8 := by
    rw [BitVec.toNat_ofNat]
    omega
  rw [s.fpLoadD_reaches i rd v len hf p h]
  have hdone := WroteF.of_setF s rd (BitVec.ofNat 64 (s.bytesAt p 8)) 0 len hlen
  rw [if_pos (show s.cfg.flen64 = true from hd), hw] at hdone
  exact ⟨_, rfl, hdone⟩

/-- A store of a floating-point register that every check allows (R260, R287). -/
theorem State.fpStore_done (s : State) (i : Instr) (rs2 : Reg) (v : Word) (n len p : Nat) {a : Nat}
    (hf : s.mstatus.fs ≠ 0) (hlen : len < 2 ^ 63) (ha : v.toNat = a) (h : Reaches s .store a n p) :
    ∃ t, s.fpStore i rs2 v n len = .next t ∧ StoredBytes s t p n (s.getF rs2).toNat ∧
      Retired s t (s.pc.toNat + len) ∧ (∀ r, t.ux r = s.ux r) ∧ t.besideMem = s.besideMem := by
  subst ha
  rw [s.fpStore_reaches i rs2 v n len hf p h]
  exact ⟨_, rfl, Stores.of_writeAll s p n _ len hlen⟩

/-- Settles O50: each load and store by its shape, at its address. -/
theorem floatLoadsAndStores : Obligations.FloatLoadsAndStores := by
  unfold Obligations.FloatLoadsAndStores
  intro s rd rs2 rs1 imm rd' rs1' rs2' o5 o6 p hf
  have ha : (s.addrPlus rs1 (imm12 imm)).toNat = s.dataAddress rs1 imm.toInt := by
    rw [State.addrPlus_toNat, imm12_toInt]
  have ha4 : (s.addrPlus rs1'.reg (cOffset4 o5)).toNat = s.dataAddress rs1'.reg (4 * o5.toNat) := by
    rw [State.addrPlus_toNat, cOffset4, scaled_toInt o5 2 (by decide)]
    rfl
  have ha8 : (s.addrPlus rs1'.reg (cOffset8 o5)).toNat = s.dataAddress rs1'.reg (8 * o5.toNat) := by
    rw [State.addrPlus_toNat, cOffset8, scaled_toInt o5 3 (by decide)]
    rfl
  have hs4 : (s.addrPlus sp (cSpOffset4 o6)).toNat = s.dataAddress 2 (4 * o6.toNat) := by
    rw [State.addrPlus_toNat, cSpOffset4, scaled_toInt o6 2 (by decide)]
    rfl
  have hs8 : (s.addrPlus sp (cSpOffset8 o6)).toNat = s.dataAddress 2 (8 * o6.toNat) := by
    rw [State.addrPlus_toNat, cSpOffset8, scaled_toInt o6 3 (by decide)]
    rfl
  refine ⟨?_, ?_, ?_, ?_, ?_, ?_, ?_, ?_, ?_, ?_, ?_, ?_⟩
  · exact s.fpLoadS_done _ rd _ 4 p hf (by decide) ha
  · exact s.fpLoadS_done _ rd'.reg _ 2 p hf (by decide) ha4
  · exact s.fpLoadS_done _ rd _ 2 p hf (by decide) hs4
  · exact s.fpLoadD_done _ rd _ 4 p hf (by decide) ha
  · exact s.fpLoadD_done _ rd'.reg _ 2 p hf (by decide) ha8
  · exact s.fpLoadD_done _ rd _ 2 p hf (by decide) hs8
  · exact s.fpStore_done _ rs2 _ 4 4 p hf (by decide) ha
  · exact s.fpStore_done _ rs2'.reg _ 4 2 p hf (by decide) ha4
  · exact s.fpStore_done _ rs2 _ 4 2 p hf (by decide) hs4
  · exact s.fpStore_done _ rs2 _ 8 4 p hf (by decide) ha
  · exact s.fpStore_done _ rs2'.reg _ 8 2 p hf (by decide) ha8
  · exact s.fpStore_done _ rs2 _ 8 2 p hf (by decide) hs8

end Sys2Proof.Machine
end

section
/-! The six CSR instructions (R161): an access that is allowed completes, one that is not traps (R31). -/

namespace Sys2Proof.Machine

open Sys2Proof

/-! ## Accesses that are allowed -/

theorem State.wrap_of_cfg {s u : State} (h : u.cfg = s.cfg) (v : Int) : u.wrap v = s.wrap v := by
  unfold State.wrap State.modulus
  rw [h]

theorem State.ux_of_x {s u : State} (hc : u.cfg = s.cfg) (hx : u.x = s.x) (r : Reg) : u.ux r = s.ux r := by
  unfold State.ux State.getX
  rw [hc, hx]

/-- A CSR instruction retires like any other, but for the count where it wrote a half of `minstret` (R35). -/
theorem State.csrRetire_eq (s : State) (r : Csr) (writes : Bool) : s.csrRetire r writes =
    { s.retire 4 with minstret := if writes && r.isInstret then s.minstret else s.minstret + 1 } := by
  unfold State.csrRetire
  split <;> rfl

/-- A CSR instruction that does not write (R161). -/
theorem State.csrUpdate_read_done (s : State) (r : Csr) (rd : Reg) (newValue : Word → Word) :
    CsrDone s ((s.csrUpdate r rd false newValue).csrRetire r false) r rd none := by
  obtain ⟨t, ht, hw⟩ := s.putX_computes rd (s.csrRead r) (s.csrRead r).toNat 4 rfl
  cases ht
  exact {
    pc := hw.pc
    old := hw.value
    others := hw.others
    bytes := hw.bytes
    unwritten := fun _ => ⟨hw.beside, hw.counted⟩
    written := fun _ h => nomatch h }

/-- A CSR instruction that writes (R161). -/
theorem State.csrUpdate_write_done (s : State) (r : Csr) (rd : Reg) (newValue : Word → Word) :
    CsrDone s ((s.csrUpdate r rd true newValue).csrRetire r true) r rd
      (some (s.cfg.xlen.norm (newValue (s.csrBase r)))) := by
  let v := s.cfg.xlen.norm (newValue (s.csrBase r))
  let u := s.csrWrite r v
  obtain ⟨hcfg, hx, -, hpc, -, -, -, hmem, -⟩ := s.csrWrite_frame r v
  obtain ⟨t, ht, hw⟩ := u.putX_computes rd (s.csrRead r) (s.csrRead r).toNat 4 rfl
  cases ht
  have hux (q : Reg) : u.ux q = s.ux q := State.ux_of_x hcfg hx q
  have hwrap (n : Int) : u.wrap n = s.wrap n := State.wrap_of_cfg hcfg n
  rw [show s.csrUpdate r rd true newValue = u.setX rd (s.csrRead r) from rfl, State.csrRetire_eq]
  exact {
    pc := by rw [← hwrap, ← hpc]; exact hw.pc
    old := by rw [← hwrap]; exact hw.value
    others := fun q hq => (hw.others q hq).trans (hux q)
    bytes := fun a => by rw [← hmem]; exact hw.bytes a
    unwritten := fun h => nomatch h
    written := by
      rintro _ ⟨⟩
      refine ⟨hw.beside, ?_⟩
      cases hr : r.isInstret with
      | true => exact u.setX_minstret rd _
      | false =>
        change (u.setX rd (s.csrRead r)).minstret + 1 = s.minstret + 1
        rw [State.setX_minstret, s.csrWrite_minstret r v hr] }

/-- A CSR instruction that reads only, where the access is allowed. -/
theorem State.csr_reads {s : State} {a : BitVec 12} {r : Csr} (h : s.csrAccess a false = some r) (i : Instr)
    (rd : Reg) (newValue : Word → Word) :
    ∃ t, s.csr i a rd false newValue = .next t ∧ CsrDone s t r rd none := by
  refine ⟨_, ?_, s.csrUpdate_read_done r rd newValue⟩
  unfold State.csr State.csrInstr
  rw [h]
  rfl

/-- A CSR instruction that writes, where the access is allowed. -/
theorem State.csr_writes {s : State} {a : BitVec 12} {r : Csr} {writes : Bool} (hw : writes = true)
    (h : s.csrAccess a true = some r) (i : Instr) (rd : Reg) (newValue : Word → Word) :
    ∃ t, s.csr i a rd writes newValue = .next t ∧
      CsrDone s t r rd (some (s.cfg.xlen.norm (newValue (s.csrBase r)))) := by
  subst hw
  refine ⟨_, ?_, s.csrUpdate_write_done r rd newValue⟩
  unfold State.csr State.csrInstr
  rw [h]
  rfl

/-- An immediate of a CSR instruction is an XLEN-bit value. -/
theorem Xlen.norm_zimm (x : Xlen) (z : BitVec 5) : x.norm (z.setWidth 64) = z.setWidth 64 := by
  refine x.norm_of_lt _ ?_
  have hz := z.isLt
  have hx : 2 ^ 5 ≤ 2 ^ x.bits := by cases x <;> decide
  rw [BitVec.toNat_setWidth, Nat.mod_eq_of_lt (by omega)]
  omega

/-- `csrrw` completes (R168). -/
theorem csrrw_completes {s : State} {a : BitVec 12} {r : Csr} (h : s.csrAccess a true = some r) (rd rs1 : Reg) :
    CsrCompletes (.csrrw rd a rs1) s r rd (some (s.getX rs1)) := by
  have := State.csr_writes rfl h (.csrrw rd a rs1) rd fun _ => s.getX rs1
  rwa [s.norm_getX] at this

/-- `csrrs` with x0 completes and writes nothing (R166). -/
theorem csrrs_zero_completes {s : State} {a : BitVec 12} {r : Csr} (h : s.csrAccess a false = some r)
    (rd : Reg) : CsrCompletes (.csrrs rd a 0) s r rd none :=
  State.csr_reads h (.csrrs rd a 0) rd fun t => t ||| s.getX 0

/-- Settles O30: each instruction by whether it writes; csrrs, csrrc and their immediate forms write unless the
field is 0. -/
theorem csrInstructionsComplete : Obligations.CsrInstructionsComplete := by
  unfold Obligations.CsrInstructionsComplete
  intro s rd rs1 a z r
  refine ⟨fun h => ⟨csrrw_completes h rd rs1, ?_, fun hr => ⟨?_, ?_⟩, fun hz => ⟨?_, ?_⟩⟩,
    fun h => ⟨csrrs_zero_completes h rd, ?_, ?_, ?_⟩⟩
  · have := State.csr_writes rfl h (.csrrwi rd a z) rd fun _ => z.setWidth 64
    rwa [Xlen.norm_zimm] at this
  · exact State.csr_writes (bne_iff_ne.2 hr) h (.csrrs rd a rs1) rd fun t => t ||| s.getX rs1
  · exact State.csr_writes (bne_iff_ne.2 hr) h (.csrrc rd a rs1) rd fun t => t &&& ~~~s.getX rs1
  · exact State.csr_writes (bne_iff_ne.2 hz) h (.csrrsi rd a z) rd fun t => t ||| z.setWidth 64
  · exact State.csr_writes (bne_iff_ne.2 hz) h (.csrrci rd a z) rd fun t => t &&& ~~~(z.setWidth 64)
  · exact State.csr_reads h (.csrrc rd a 0) rd fun t => t &&& ~~~s.getX 0
  · exact State.csr_reads h (.csrrsi rd a 0) rd fun t => t ||| (0 : BitVec 5).setWidth 64
  · exact State.csr_reads h (.csrrci rd a 0) rd fun t => t &&& ~~~((0 : BitVec 5).setWidth 64)

/-! ## Accesses that are barred -/

/-- A counter's view is closed to the mode (R37). -/
theorem State.counterEnabled_eq_false_iff (s : State) (n : Nat) : s.counterEnabled n = false ↔
    (s.priv ≠ .m ∧ s.mcounteren.getLsbD n = false) ∨
      (s.priv = .u ∧ s.cfg.hasS = true ∧ s.scounteren.getLsbD n = false) := by
  unfold State.counterEnabled
  cases s.priv with
  | m => simp
  | s => simp
  | u => simp only [Bool.and_eq_false_iff, Bool.or_eq_false_iff]; simp

/-- The ways the extra conditions can bar a CSR (R31 check 4). -/
theorem State.csrExtra_eq_false_iff (s : State) (r : Csr) : s.csrExtra r = false ↔
    (r.isFloat = true ∧ s.mstatus.fs = 0) ∨ (r = .satp ∧ s.priv = .s ∧ s.mstatus.tvm = true) ∨
      ∃ n, r.counterBit = some n ∧ s.counterEnabled n = false := by
  cases r <;> simp [State.csrExtra, Csr.isFloat, Csr.counterBit]

/-- The checks of R31 but the one for read-only addresses bar the access. -/
def State.Barred (s : State) (a : BitVec 12) : Prop :=
  s.priv.code < csrLevel a ∨ csrAt s.cfg a = none ∨
    (a.toNat ∈ [1, 2, 3] ∧ s.mstatus.fs = 0) ∨
    (a.toNat = 0x180 ∧ s.priv = .s ∧ s.mstatus.tvm = true) ∨
    ((a.toNat / 32 = 0x60 ∨ a.toNat / 32 = 0x64) ∧
      ((s.priv ≠ .m ∧ s.mcounteren.getLsbD (a.toNat % 32) = false) ∨
        (s.priv = .u ∧ s.cfg.hasS = true ∧ s.scounteren.getLsbD (a.toNat % 32) = false)))

/-- Where the address names a CSR, its extra condition fails in the cases `State.Barred` lists. -/
theorem State.barred_of_csrAt {s : State} {a : BitVec 12} {r : Csr} (h : csrAt s.cfg a = some r) :
    s.Barred a ↔ s.priv.code < csrLevel a ∨ s.csrExtra r = false := by
  obtain ⟨hfloat, hsatp, hcounter, -⟩ := (r.fitsAddress_iff _).1 (csrAt_fitsAddress h)
  have hbit : (∃ n, r.counterBit = some n ∧ s.counterEnabled n = false) ↔
      (a.toNat / 32 = 0x60 ∨ a.toNat / 32 = 0x64) ∧ s.counterEnabled (a.toNat % 32) = false := by
    rw [hcounter]
    split
    · next hb => simp [hb]
    · next hb => simp [hb]
  unfold State.Barred
  rw [s.csrExtra_eq_false_iff, hfloat, hsatp, hbit, s.counterEnabled_eq_false_iff, h]
  simp only [reduceCtorEq, false_or]

/-- A barred access fails the check, and so does a writing one to a read-only address (R31). -/
theorem State.csrAccess_eq_none {s : State} {a : BitVec 12} {writes : Bool}
    (h : s.Barred a ∨ (writes = true ∧ csrReadOnly a = true)) : s.csrAccess a writes = none := by
  cases ha : s.csrAccess a writes with
  | none => rfl
  | some r =>
    exfalso
    obtain ⟨hlevel, hwrite, hat, hextra⟩ := (s.csrAccess_eq_some a writes r).1 ha
    rcases h with hb | ⟨hw, hro⟩
    · rcases (State.barred_of_csrAt hat).1 hb with hl | he
      · omega
      · rw [hextra] at he; cases he
    · rw [hwrite hw] at hro; cases hro

/-- An access that is not barred, and does not write a read-only address, passes (R31). -/
theorem State.csrAccess_of_not_barred {s : State} {a : BitVec 12} {r : Csr} {writes : Bool}
    (hat : csrAt s.cfg a = some r) (h : ¬ s.Barred a) (hw : writes = true → csrReadOnly a = false) :
    s.csrAccess a writes = some r := by
  rw [State.barred_of_csrAt hat, not_or, not_lt, Bool.not_eq_false] at h
  exact (s.csrAccess_eq_some a writes r).2 ⟨h.1, hw, hat, h.2⟩

/-- The trap value of an illegal instruction is an XLEN-bit value (R395). -/
theorem State.illegalTval_encode (s : State) (i : Instr) :
    (s.illegalTval (encode i)).toNat = s.illegalValue i ∧ (s.illegalTval (encode i)).toNat < s.modulus := by
  have hw := (encode i).isLt
  have hm : 2 ^ 32 ≤ s.modulus := by
    unfold State.modulus
    cases s.cfg.xlen <;> decide
  unfold State.illegalTval State.illegalValue
  cases s.cfg.mtvalIllegal with
  | bits =>
    have he : ((encode i).setWidth 64).toNat = (encode i).toNat := by
      rw [BitVec.toNat_setWidth]
      omega
    exact ⟨he, by rw [he]; omega⟩
  | zero => exact ⟨rfl, s.modulus_pos⟩

/-- An instruction that is illegal by its own rule traps with its own word as trap value (R394, R395). -/
theorem State.illegal_traps (s : State) (hs : AtInstruction s) (i : Instr) :
    ∃ t, s.commit (s.illegal i) = .next t ∧ Trapped s t 2 (s.illegalValue i) := by
  obtain ⟨he, hlt⟩ := s.illegalTval_encode i
  obtain ⟨t, ht, htr⟩ := s.commit_raise_trapped .illegalInstruction _ hs hlt
  exact ⟨t, ht, he ▸ htr⟩

/-- A CSR instruction whose access fails the check traps. -/
theorem State.csr_traps {s : State} (hs : AtInstruction s) {a : BitVec 12} {writes : Bool}
    (h : s.csrAccess a writes = none) (i : Instr) (rd : Reg) (newValue : Word → Word) :
    ∃ t, s.csr i a rd writes newValue = .next t ∧ Trapped s t 2 (s.illegalValue i) := by
  unfold State.csr State.csrInstr
  rw [h]
  exact s.illegal_traps hs i

/-- Settles O31: the check of R31 fails exactly for a barred access and for a write to a read-only address, whichever
of the six instructions makes it. -/
theorem csrAccessesAreChecked : Obligations.CsrAccessesAreChecked := by
  unfold Obligations.CsrAccessesAreChecked
  intro s hs rd rs1 a z level mode readOnly barred illegal
  have hmode : mode = s.priv.code := by
    change (match s.priv with | .u => 0 | .s => 1 | .m => 3) = s.priv.code
    cases s.priv <;> rfl
  have hbarred : barred ↔ s.Barred a := by
    unfold State.Barred
    rw [csrLevel_eq, ← hmode]
  have hro : readOnly ↔ csrReadOnly a = true := (csrReadOnly_iff a).symm
  rw [hbarred, hro]
  refine ⟨fun h => ?_, fun h => ?_, fun h => ?_⟩
  · have hn : s.csrAccess a false = none := State.csrAccess_eq_none (.inl h)
    exact ⟨State.csr_traps hs hn (.csrrs rd a 0) rd _, State.csr_traps hs hn (.csrrc rd a 0) rd _,
      State.csr_traps hs hn (.csrrsi rd a 0) rd _, State.csr_traps hs hn (.csrrci rd a 0) rd _⟩
  · have hn {writes : Bool} (hw : writes = true) : s.csrAccess a writes = none :=
      State.csrAccess_eq_none (h.imp_right fun hr => ⟨hw, hr⟩)
    exact ⟨State.csr_traps hs (hn rfl) (.csrrw rd a rs1) rd _,
      State.csr_traps hs (hn rfl) (.csrrwi rd a z) rd _,
      fun hr => ⟨State.csr_traps hs (hn (bne_iff_ne.2 hr)) (.csrrs rd a rs1) rd _,
        State.csr_traps hs (hn (bne_iff_ne.2 hr)) (.csrrc rd a rs1) rd _⟩,
      fun hz => ⟨State.csr_traps hs (hn (bne_iff_ne.2 hz)) (.csrrsi rd a z) rd _,
        State.csr_traps hs (hn (bne_iff_ne.2 hz)) (.csrrci rd a z) rd _⟩⟩
  · cases hat : csrAt s.cfg a with
    | none => exact absurd (.inr (.inl hat)) h
    | some r =>
      exact ⟨⟨r, rfl⟩, State.csrAccess_of_not_barred hat h (fun hw => nomatch hw),
        fun hr => State.csrAccess_of_not_barred hat h fun _ => by simpa using hr⟩

end Sys2Proof.Machine
end

section
/-! Reading a CSR by `csrrs` with x0 and swapping it by `csrrw` (R161), and the swaps of the CSRs that hold a value: those
of traps and delegation (R43, R44, R47 to R50) and `satp` (R51). -/

namespace Sys2Proof.Machine

open Sys2Proof

/-! ## Reading and swapping a CSR -/

/-- M-mode may access every CSR that exists, but for the views of `fcsr`, which need FS (R31). -/
theorem State.csrAccess_machine {s : State} {a : BitVec 12} {r : Csr} {writes : Bool} (hm : s.priv = .m)
    (hat : csrAt s.cfg a = some r) (hr : r.isFloat = false) (hw : writes = true → csrReadOnly a = false) :
    s.csrAccess a writes = some r := by
  refine (s.csrAccess_eq_some a writes r).2 ⟨?_, hw, hat, ?_⟩
  · rw [hm, csrLevel_eq]
    simp only [Priv.code]
    split <;> omega
  · rw [← Bool.not_eq_false, s.csrExtra_eq_false_iff]
    simp [hr, hm, s.counterEnabled_eq_false_iff]

/-- `csrrs` with x0 reads the CSR and changes nothing else (R161). -/
theorem csrrs_zero_computes {s : State} {a : BitVec 12} {r : Csr} (h : s.csrAccess a false = some r)
    (rd : Reg) {n : Nat} (hn : (s.csrRead r).toNat = n) : Computes (.csrrs rd a 0) s rd n 4 := by
  subst hn
  obtain ⟨t, ht, hd⟩ := csrrs_zero_completes h rd
  obtain ⟨hbeside, hcount⟩ := hd.unwritten rfl
  exact ⟨t, ht, ⟨hd.pc, hcount⟩, hd.old, hd.others, hd.bytes, hbeside⟩

/-- `csrrw` puts the old value in `x[rd]` and leaves, beside that, what the write of the register leaves (R161). -/
theorem csrrw_swaps {s : State} {a : BitVec 12} {r : Csr} (h : s.csrAccess a true = some r)
    (hr : r.isInstret = false) (rd rs1 : Reg) :
    ∃ t, exec (.csrrw rd a rs1) s = .next t ∧ Retired s t (s.pc.toNat + 4) ∧
      (t.ux rd = if rd = 0 then 0 else s.wrap (s.csrRead r).toNat) ∧ SameX s t rd ∧ SameBytes s t ∧
      t.besideX = (s.csrWrite r (s.getX rs1)).besideX := by
  obtain ⟨t, ht, hd⟩ := csrrw_completes h rd rs1
  obtain ⟨hbeside, hcount⟩ := hd.written _ rfl
  rw [hr] at hcount
  exact ⟨t, ht, ⟨hd.pc, hcount⟩, hd.old, hd.others, hd.bytes, hbeside⟩

/-- `csrrw` to a CSR that a field of the state holds. -/
theorem csrrw_swaps_field {s : State} {a : BitVec 12} {r : Csr} (h : s.csrAccess a true = some r)
    (hr : r.isInstret = false) (rd rs1 : Reg) (field : State → Word) (put : State → Word → State) {new : Nat}
    (hfield : ∀ u : State, field u.besideX = field u) (hread : s.csrRead r = field s)
    (hnew : (field (s.csrWrite r (s.getX rs1))).toNat = new)
    (hput : put (s.csrWrite r (s.getX rs1)).besideX (field s) = s.besideX) :
    ∃ t, exec (.csrrw rd a rs1) s = .next t ∧ Retired s t (s.pc.toNat + 4) ∧
      (field t).toNat = new ∧ (t.ux rd = if rd = 0 then 0 else s.wrap (field s).toNat) ∧
      SameX s t rd ∧ SameBytes s t ∧ put t.besideX (field s) = s.besideX := by
  obtain ⟨t, ht, hret, hold, hx, hb, hbeside⟩ := csrrw_swaps h hr rd rs1
  have hf : field t = field (s.csrWrite r (s.getX rs1)) := by
    rw [← hfield t, hbeside, hfield]
  exact ⟨t, ht, hret, hf ▸ hnew, hread ▸ hold, hx, hb, hbeside.symm ▸ hput⟩

/-! ## Numbers of WARL fields -/

/-- Bit 1 of a trap vector is 0 (R43). -/
theorem tvecMask_toNat (v : Word) : (tvecMask v).toNat = v.toNat / 4 * 4 + v.toNat % 2 := by
  have hsplit : tvecMask v = (v >>> 2) <<< 2 ||| v &&& 1#64 := by
    unfold tvecMask
    ext i hi
    interval_cases i <;> simp
  have hlow : v.toNat &&& 1 = v.toNat % 2 := Nat.and_one_is_mod _
  have hv := v.isLt
  have hhigh : ((v >>> 2) <<< 2).toNat = (v.toNat / 4) <<< 2 := by
    simp only [BitVec.toNat_shiftLeft, BitVec.toNat_ushiftRight, Nat.shiftRight_eq_div_pow, Nat.shiftLeft_eq]
    omega
  rw [hsplit, BitVec.toNat_or, BitVec.toNat_and, hhigh]
  change _ ||| v.toNat &&& 1 = _
  rw [hlow, ← Nat.shiftLeft_add_eq_or_of_lt (by omega), Nat.shiftLeft_eq]

/-- A saved pc is aligned (R48). -/
theorem State.epcMask_toNat (s : State) {v : Word} (hv : v.toNat < s.modulus) :
    (epcMask s.cfg v).toNat = v.toNat / s.cfg.ialignBytes * s.cfg.ialignBytes := by
  unfold epcMask Config.ialignBytes
  rw [Xlen.norm_toNat]
  change _ % s.modulus = _
  split
  · rw [clearOne_toNat, Nat.mod_eq_of_lt (by omega)]
  · rw [clearTwo_toNat, Nat.mod_eq_of_lt (by omega)]

/-- Three fields side by side make the sum of their numbers. -/
theorem or_fields (a : Nat) {b c i j : Nat} (hb : b < 2 ^ j) (hc : c < 2 ^ i) :
    a * 2 ^ (i + j) ||| b * 2 ^ i ||| c = a * 2 ^ (i + j) + b * 2 ^ i + c := by
  have hab : a * 2 ^ (i + j) ||| b * 2 ^ i = (a * 2 ^ j + b) <<< i := by
    rw [Nat.pow_add, Nat.mul_comm (2 ^ i), ← Nat.mul_assoc, ← Nat.shiftLeft_eq, ← Nat.shiftLeft_eq b,
      ← Nat.shiftLeft_or_distrib, ← Nat.shiftLeft_eq, Nat.shiftLeft_add_eq_or_of_lt hb]
  rw [hab, ← Nat.shiftLeft_add_eq_or_of_lt hc, Nat.shiftLeft_eq]
  ring

/-- The value `satp` holds after a legal write on RV32 (R51). -/
theorem satpStored_rv32 {c : Config} (hx : c.xlen = .rv32) {v : Word} (hv : v.toNat < 2 ^ 32) :
    (satpStored c v).toNat =
      v.toNat / 2 ^ 31 * 2 ^ 31 + v.toNat / 2 ^ 22 % 2 ^ 9 % 2 ^ c.asidLen * 2 ^ 22 + v.toNat % 2 ^ 22 := by
  have hasid : satpAsid c v = v.toNat / 2 ^ 22 % 2 ^ 9 % 2 ^ c.asidLen := by
    simp only [satpAsid, hx, asidOf, BitVec.extractLsb'_toNat, Nat.shiftRight_eq_div_pow]
  have hlt := satpAsid_lt_of_rv32 hx v
  have hmode : (bitAt (v.getLsbD 31) 31).toNat = v.toNat / 2 ^ 31 * 2 ^ 31 := by
    have hbit : v.getLsbD 31 = decide (v.toNat / 2 ^ 31 % 2 = 1) := Nat.testBit_eq_decide_div_mod_eq
    rw [hbit]
    rcases (show v.toNat / 2 ^ 31 = 0 ∨ v.toNat / 2 ^ 31 = 1 by omega) with h | h <;> rw [h] <;> rfl
  have hppn : ((v.extractLsb' 0 22).setWidth 64).toNat = v.toNat % 2 ^ 22 := by
    simp only [BitVec.toNat_setWidth, BitVec.extractLsb'_toNat, Nat.shiftRight_zero]
    omega
  have hsum := or_fields (v.toNat / 2 ^ 31) (i := 22) (j := 9) hlt
    (Nat.mod_lt v.toNat (show 0 < 2 ^ 22 by decide))
  simp only [satpStored, hx, BitVec.toNat_or, hmode, hppn, BitVec.toNat_ofNat]
  rw [Nat.mod_eq_of_lt (by omega), ← hasid]
  exact hsum

/-- The value `satp` holds after a legal write on RV64 (R51). -/
theorem satpStored_rv64 {c : Config} (hx : c.xlen = .rv64) (v : Word) :
    (satpStored c v).toNat =
      v.toNat / 2 ^ 60 * 2 ^ 60 + v.toNat / 2 ^ 44 % 2 ^ 16 % 2 ^ c.asidLen * 2 ^ 44 + v.toNat % 2 ^ 44 := by
  have hv := v.isLt
  have hasid : satpAsid c v = v.toNat / 2 ^ 44 % 2 ^ 16 % 2 ^ c.asidLen := by
    simp only [satpAsid, hx, asidOf, BitVec.extractLsb'_toNat, Nat.shiftRight_eq_div_pow]
  have hlt := satpAsid_lt_of_rv64 hx v
  have hmode : ((v.extractLsb' 60 4).setWidth 64 <<< 60).toNat = v.toNat / 2 ^ 60 * 2 ^ 60 := by
    simp only [BitVec.toNat_shiftLeft, BitVec.toNat_setWidth, BitVec.extractLsb'_toNat,
      Nat.shiftRight_eq_div_pow, Nat.shiftLeft_eq]
    omega
  have hppn : ((v.extractLsb' 0 44).setWidth 64).toNat = v.toNat % 2 ^ 44 := by
    simp only [BitVec.toNat_setWidth, BitVec.extractLsb'_toNat, Nat.shiftRight_zero]
    omega
  have hsum := or_fields (v.toNat / 2 ^ 60) (i := 44) (j := 16) hlt
    (Nat.mod_lt v.toNat (show 0 < 2 ^ 44 by decide))
  simp only [satpStored, hx, BitVec.toNat_or, hmode, hppn, BitVec.toNat_ofNat]
  rw [Nat.mod_eq_of_lt (by omega), ← hasid]
  exact hsum

/-- The modes `satp` may have on RV32 (R51, R68). -/
theorem satpLegal_rv32 {c : Config} (hx : c.xlen = .rv32) {v : Word} (hv : v.toNat < 2 ^ 32) :
    satpLegal c v = true ↔ v.toNat / 2 ^ 31 = 0 ∨ c.sv32 = true := by
  have hbit : v.getLsbD 31 = decide (v.toNat / 2 ^ 31 % 2 = 1) := Nat.testBit_eq_decide_div_mod_eq
  simp only [satpLegal, hx, hbit, Bool.or_eq_true, Bool.not_eq_true', decide_eq_false_iff_not]
  refine or_congr_left ?_
  omega

/-- The modes `satp` may have on RV64 (R51, R68). -/
theorem satpLegal_rv64 {c : Config} (hx : c.xlen = .rv64) (v : Word) :
    satpLegal c v = true ↔ v.toNat / 2 ^ 60 = 0 ∨ (v.toNat / 2 ^ 60 = 8 ∧ c.sv39 = true) ∨
      (v.toNat / 2 ^ 60 = 9 ∧ c.sv48 = true) := by
  have hv := v.isLt
  have hmode : (v.extractLsb' 60 4).toNat = v.toNat / 2 ^ 60 := by
    rw [BitVec.extractLsb'_toNat, Nat.shiftRight_eq_div_pow]
    omega
  rw [← hmode]
  simp only [satpLegal, hx]
  split
  · next h => simp [h]
  · next h => simp [h]
  · next h => simp [h]
  · next h0 h8 h9 =>
    have hne (n : BitVec 4) (h : v.extractLsb' 60 4 ≠ n) : (v.extractLsb' 60 4).toNat ≠ n.toNat :=
      fun e => h (BitVec.eq_of_toNat_eq e)
    have h0 := hne 0#4 h0
    have h8 := hne 8#4 h8
    have h9 := hne 9#4 h9
    simp at h0 h8 h9
    simp [h0, h8, h9]

/-- A legal write leaves the stored value in `satp` (R51). -/
theorem State.writeSatp_satp {s : State} {v : Word} (h : satpLegal s.cfg v = true) :
    (s.writeSatp v).satp = satpStored s.cfg v := by
  unfold State.writeSatp
  rw [if_pos h]
  dsimp only
  split
  · next he => exact he.symm
  · rfl

theorem State.writeSatp_illegal {s : State} {v : Word} (h : ¬ satpLegal s.cfg v = true) :
    s.writeSatp v = s := if_neg h

/-- A write of `satp` changes `satp` and the record of its old values alone. -/
theorem State.writeSatp_besideX (s : State) (v : Word) :
    ({ (s.writeSatp v).besideX with satp := s.satp, staleSatp := s.staleSatp } : State) = s.besideX := by
  rcases s.writeSatp_cases v with e | ⟨-, e⟩ <;> rw [e] <;> rfl

/-! ## Trap CSRs and `satp` -/

/-- Settles O32: each CSR at its address, with the number its WARL mask leaves. -/
theorem trapAndTranslationCsrWrites : Obligations.TrapAndTranslationCsrWrites := by
  unfold Obligations.TrapAndTranslationCsrWrites
  intro s rd rs1 hm
  have hlt : (s.getX rs1).toNat < s.modulus := s.getX_lt rs1
  have access {a : BitVec 12} {r : Csr} (hat : csrAt s.cfg a = some r) (hr : r.isFloat = false)
      (hw : csrReadOnly a = false) : s.csrAccess a true = some r :=
    State.csrAccess_machine hm hat hr fun _ => hw
  refine ⟨?_, ?_, ?_, ?_, ?_, fun hS => ?_⟩
  · exact csrrw_swaps_field (access (a := 0x305) (r := .mtvec) rfl rfl rfl) rfl rd rs1 State.mtvec
      (fun u w => { u with mtvec := w }) (fun _ => rfl) rfl (tvecMask_toNat _) rfl
  · exact csrrw_swaps_field (access (a := 0x340) (r := .mscratch) rfl rfl rfl) rfl rd rs1 State.mscratch
      (fun u w => { u with mscratch := w }) (fun _ => rfl) rfl rfl rfl
  · exact csrrw_swaps_field (access (a := 0x341) (r := .mepc) rfl rfl rfl) rfl rd rs1 State.mepc
      (fun u w => { u with mepc := w }) (fun _ => rfl) rfl (s.epcMask_toNat hlt) rfl
  · exact csrrw_swaps_field (access (a := 0x342) (r := .mcause) rfl rfl rfl) rfl rd rs1 State.mcause
      (fun u w => { u with mcause := w }) (fun _ => rfl) rfl rfl rfl
  · exact csrrw_swaps_field (access (a := 0x343) (r := .mtval) rfl rfl rfl) rfl rd rs1 State.mtval
      (fun u w => { u with mtval := w }) (fun _ => rfl) rfl rfl rfl
  have row (r : Csr) : existsIf s.cfg.hasS r = some r := if_pos hS
  have hsatp (n : Nat) (h : (s.writeSatp (s.getX rs1)).satp.toNat = n) :=
    csrrw_swaps_field (access (a := 0x180) (row .satp) rfl rfl) rfl rd rs1 State.satp
      (fun u w => { u with satp := w, staleSatp := s.staleSatp }) (fun _ => rfl) rfl h
      (s.writeSatp_besideX _)
  refine ⟨?_, ?_, ?_, ?_, ?_, ?_, ?_, ?_⟩
  · exact csrrw_swaps_field (access (a := 0x105) (row .stvec) rfl rfl) rfl rd rs1 State.stvec
      (fun u w => { u with stvec := w }) (fun _ => rfl) rfl (tvecMask_toNat _) rfl
  · exact csrrw_swaps_field (access (a := 0x140) (row .sscratch) rfl rfl) rfl rd rs1 State.sscratch
      (fun u w => { u with sscratch := w }) (fun _ => rfl) rfl rfl rfl
  · exact csrrw_swaps_field (access (a := 0x141) (row .sepc) rfl rfl) rfl rd rs1 State.sepc
      (fun u w => { u with sepc := w }) (fun _ => rfl) rfl (s.epcMask_toNat hlt) rfl
  · exact csrrw_swaps_field (access (a := 0x142) (row .scause) rfl rfl) rfl rd rs1 State.scause
      (fun u w => { u with scause := w }) (fun _ => rfl) rfl rfl rfl
  · exact csrrw_swaps_field (access (a := 0x143) (row .stval) rfl rfl) rfl rd rs1 State.stval
      (fun u w => { u with stval := w }) (fun _ => rfl) rfl rfl rfl
  · exact csrrw_swaps_field (access (a := 0x302) (row .medeleg) rfl rfl) rfl rd rs1 State.medeleg
      (fun u w => { u with medeleg := w }) (fun _ => rfl) rfl (BitVec.toNat_and _ _) rfl
  · exact csrrw_swaps_field (access (a := 0x303) (row .mideleg) rfl rfl) rfl rd rs1 State.mideleg
      (fun u w => { u with mideleg := w }) (fun _ => rfl) rfl (BitVec.toNat_and _ _) rfl
  dsimp only
  split
  · next hx =>
    have hlt' : (s.getX rs1).toNat < 2 ^ 32 := by
      rw [State.modulus, hx] at hlt
      exact hlt
    have hlegal := satpLegal_rv32 hx hlt'
    exact ⟨fun h => hsatp _ (by rw [State.writeSatp_satp (hlegal.2 h)]; exact satpStored_rv32 hx hlt'),
      fun h => hsatp _ (by rw [State.writeSatp_illegal fun e => h (hlegal.1 e)])⟩
  · next hx =>
    have hlegal := satpLegal_rv64 hx (s.getX rs1)
    exact ⟨fun h => hsatp _ (by rw [State.writeSatp_satp (hlegal.2 h)]; exact satpStored_rv64 hx _),
      fun h => hsatp _ (by rw [State.writeSatp_illegal fun e => h (hlegal.1 e)])⟩

end Sys2Proof.Machine
end

section
/-! The views of `fcsr` (R34), and the counters, their enables and the hardwired CSRs (R35 to R40), through `csrrs`
with x0 and `csrrw`. -/

namespace Sys2Proof.Machine

open Sys2Proof

/-- A number of at most 32 bits is an XLEN-bit number. -/
theorem State.wrap_of_lt (s : State) {n : Nat} (h : n < 2 ^ 32) : s.wrap n = n := by
  have hm : 2 ^ 32 ≤ s.modulus := by
    unfold State.modulus
    cases s.cfg.xlen <;> decide
  rw [s.wrap_natCast, Nat.mod_eq_of_lt (by omega)]

/-! ## The views of `fcsr` -/

/-- The views of `fcsr` may be accessed in every mode where FS is not 0 (R31). -/
theorem State.csrAccess_float {s : State} {a : BitVec 12} {r : Csr} {writes : Bool} (hfs : s.mstatus.fs ≠ 0)
    (hat : csrAt s.cfg a = some r) (hr : r.isFloat = true) (hlevel : csrLevel a = 0)
    (hw : csrReadOnly a = false) : s.csrAccess a writes = some r := by
  refine (s.csrAccess_eq_some a writes r).2 ⟨by omega, fun _ => hw, hat, ?_⟩
  cases r with
  | fflags | frm | fcsr => exact bne_iff_ne.2 hfs
  | _ => cases hr

/-- `fcsr` is `frm` above `fflags` (R34). -/
theorem State.fcsrWord_toNat (s : State) : s.fcsrWord.toNat = s.fflags.toNat + 32 * s.frm.toNat := by
  have h1 := s.fflags.isLt
  have h2 := s.frm.isLt
  unfold State.fcsrWord
  rw [BitVec.toNat_setWidth, BitVec.toNat_append, ← Nat.shiftLeft_add_eq_or_of_lt h1, Nat.shiftLeft_eq]
  omega

/-- `csrrw` to a view of `fcsr` sets FS to 3 and the fields of the view (R34). -/
theorem csrrw_swaps_float {s : State} {a : BitVec 12} {r : Csr} (h : s.csrAccess a true = some r)
    (hr : r.isFloat = true) (rd rs1 : Reg) {old newFlags newFrm : Nat}
    (hold : (s.csrRead r).toNat = old) (hlt : old < 2 ^ 32)
    (hflags : (s.csrWrite r (s.getX rs1)).fflags.toNat = newFlags)
    (hfrm : (s.csrWrite r (s.getX rs1)).frm.toNat = newFrm) :
    ∃ t, exec (.csrrw rd a rs1) s = .next t ∧ Retired s t (s.pc.toNat + 4) ∧
      t.fflags.toNat = newFlags ∧ t.frm.toNat = newFrm ∧ t.mstatus = { s.mstatus with fs := 3 } ∧
      (t.ux rd = if rd = 0 then 0 else old) ∧ SameX s t rd ∧ SameBytes s t ∧
      { t.besideX with fflags := s.fflags, frm := s.frm, mstatus := s.mstatus } = s.besideX := by
  obtain ⟨hinst, hmstatus, hbeside⟩ : r.isInstret = false ∧
      (s.csrWrite r (s.getX rs1)).mstatus = { s.mstatus with fs := 3 } ∧
      ({ (s.csrWrite r (s.getX rs1)).besideX with
        fflags := s.fflags, frm := s.frm, mstatus := s.mstatus } : State) = s.besideX := by
    cases r with
    | fflags | frm | fcsr => exact ⟨rfl, rfl, rfl⟩
    | _ => cases hr
  obtain ⟨t, ht, hret, hrd, hx, hb, hb'⟩ := csrrw_swaps h hinst rd rs1
  rw [hold, s.wrap_of_lt hlt] at hrd
  have field {α : Type} (f : State → α) : f t.besideX = f (s.csrWrite r (s.getX rs1)).besideX :=
    congrArg f hb'
  exact ⟨t, ht, hret, (congrArg BitVec.toNat (field State.fflags)).trans hflags,
    (congrArg BitVec.toNat (field State.frm)).trans hfrm, (field State.mstatus).trans hmstatus, hrd, hx, hb,
    hb'.symm ▸ hbeside⟩

/-- Settles O33: what each view reads, and the fields of `fcsr` that a write through it leaves. -/
theorem floatStatusRegisterViews : Obligations.FloatStatusRegisterViews := by
  unfold Obligations.FloatStatusRegisterViews
  intro s rd rs1 hF hfs
  have hflags : (s.fflags.setWidth 64).toNat = s.fflags.toNat := by
    rw [BitVec.toNat_setWidth]
    omega
  have hfrm : (s.frm.setWidth 64).toNat = s.frm.toNat := by
    rw [BitVec.toNat_setWidth]
    omega
  have row (r : Csr) : existsIf s.cfg.extF r = some r := if_pos hF
  have access {writes : Bool} {a : BitVec 12} {r : Csr} (hat : csrAt s.cfg a = some r)
      (hr : r.isFloat = true) (hlevel : csrLevel a = 0) (hw : csrReadOnly a = false) :
      s.csrAccess a writes = some r := State.csrAccess_float hfs hat hr hlevel hw
  have low5 : ((s.getX rs1).extractLsb' 0 5).toNat = s.ux rs1 % 32 := by
    rw [BitVec.extractLsb'_toNat, Nat.shiftRight_zero]
    rfl
  have low3 : ((s.getX rs1).extractLsb' 0 3).toNat = s.ux rs1 % 8 := by
    rw [BitVec.extractLsb'_toNat, Nat.shiftRight_zero]
    rfl
  have high3 : ((s.getX rs1).extractLsb' 5 3).toNat = s.ux rs1 / 32 % 8 := by
    rw [BitVec.extractLsb'_toNat, Nat.shiftRight_eq_div_pow]
    rfl
  refine ⟨?_, ?_, ?_, ?_, ?_, ?_⟩
  · exact csrrs_zero_computes (access (a := 0x001) (row .fflags) rfl rfl rfl) rd hflags
  · exact csrrs_zero_computes (access (a := 0x002) (row .frm) rfl rfl rfl) rd hfrm
  · exact csrrs_zero_computes (access (a := 0x003) (row .fcsr) rfl rfl rfl) rd s.fcsrWord_toNat
  · exact csrrw_swaps_float (access (a := 0x001) (row .fflags) rfl rfl rfl) rfl rd rs1 hflags (by omega) low5 rfl
  · exact csrrw_swaps_float (access (a := 0x002) (row .frm) rfl rfl rfl) rfl rd rs1 hfrm (by omega) rfl low3
  · exact csrrw_swaps_float (access (a := 0x003) (row .fcsr) rfl rfl rfl) rfl rd rs1 s.fcsrWord_toNat (by omega)
      low5 high3

/-! ## Counters -/

/-- The cycle count advances by the increment of the step (R35). -/
theorem State.beginStep_cycleNow (s : State) :
    s.beginStep.cycleNow = s.cycleNow + BitVec.ofNat 64 (Config.cycleIncrement s.tick) := by
  unfold State.cycleNow
  rw [s.beginStep_mcycle, s.beginStep_mcycleFrom, s.beginStep_tick, total, BitVec.ofNat_add]
  ring

/-- `Time()` advances by the increment of the step (R35). -/
theorem State.beginStep_timeNow (s : State) :
    s.beginStep.timeNow = s.timeNow + BitVec.ofNat 64 (Config.timeIncrement s.tick) := by
  unfold State.timeNow
  rw [s.beginStep_tick, total, ← BitVec.ofNat_add, Nat.add_assoc]

/-- A counter that is written has the value written, from this step on (R35). -/
theorem State.setCycle_cycleNow (s : State) (v : BitVec 64) : (s.setCycle v).cycleNow = v := by
  unfold State.cycleNow State.setCycle
  rw [sub_self, add_zero]

theorem State.cycleNow_csrWrite_mcycle (s : State) (v : Word) :
    (s.csrWrite .mcycle v).cycleNow = withLow s.cfg.xlen s.cycleNow v := s.setCycle_cycleNow _

theorem State.cycleNow_csrWrite_mcycleh (s : State) (v : Word) :
    (s.csrWrite .mcycleh v).cycleNow = withHigh s.cycleNow v := s.setCycle_cycleNow _

theorem State.minstret_csrWrite_minstret (s : State) (v : Word) :
    (s.csrWrite .minstret v).minstret = withLow s.cfg.xlen s.minstret v := rfl

theorem highWord_toNat (v : BitVec 64) : (highWord v).toNat = v.toNat / 2 ^ 32 := by
  rw [highWord, BitVec.toNat_ushiftRight, Nat.shiftRight_eq_div_pow]

/-- A write of the low half of a counter (R35). -/
theorem withLow_rv32_toNat (old v : BitVec 64) (hv : v.toNat < 2 ^ 32) :
    (withLow .rv32 old v).toNat = old.toNat / 2 ^ 32 * 2 ^ 32 + v.toNat := by
  have hold := old.isLt
  rw [withLow, BitVec.toNat_append, BitVec.extractLsb'_toNat, BitVec.extractLsb'_toNat, Nat.shiftRight_zero,
    Nat.shiftRight_eq_div_pow, Nat.mod_eq_of_lt hv, ← Nat.shiftLeft_add_eq_or_of_lt hv, Nat.shiftLeft_eq]
  omega

/-- A write of the high half of a counter (R35). -/
theorem withHigh_toNat (old v : BitVec 64) (hv : v.toNat < 2 ^ 32) :
    (withHigh old v).toNat = v.toNat * 2 ^ 32 + old.toNat % 2 ^ 32 := by
  rw [withHigh, BitVec.toNat_append, BitVec.extractLsb'_toNat, BitVec.extractLsb'_toNat, Nat.shiftRight_zero,
    Nat.shiftRight_zero, Nat.mod_eq_of_lt hv,
    ← Nat.shiftLeft_add_eq_or_of_lt (Nat.mod_lt _ (by decide)), Nat.shiftLeft_eq]

/-- `csrrw` to a counter or a half of one: the counter it writes, and nothing else but the old value in `x[rd]`. -/
theorem csrrw_swaps_counter {s : State} {a : BitVec 12} {r : Csr} (h : s.csrAccess a true = some r)
    (rd rs1 : Reg) {old newCycle newInstret : Nat} (hold : (s.csrRead r).toNat = old)
    (hcycle : (s.csrWrite r (s.getX rs1)).cycleNow.toNat = newCycle)
    (hinstret : (if r.isInstret then (s.csrWrite r (s.getX rs1)).minstret else s.minstret + 1).toNat =
      newInstret)
    (hbeside : ({ (s.csrWrite r (s.getX rs1)).besideX with
      mcycle := s.mcycle, mcycleFrom := s.mcycleFrom } : State) = s.besideX) :
    ∃ t, exec (.csrrw rd a rs1) s = .next t ∧ t.pc.toNat = s.wrap (s.pc.toNat + 4) ∧
      t.cycleNow.toNat = newCycle ∧ t.minstret.toNat = newInstret ∧
      (t.ux rd = if rd = 0 then 0 else s.wrap old) ∧ SameX s t rd ∧ SameBytes s t ∧
      { t.besideX with mcycle := s.mcycle, mcycleFrom := s.mcycleFrom } = s.besideX := by
  subst hold
  obtain ⟨t, ht, hd⟩ := csrrw_completes h rd rs1
  obtain ⟨hb, hcount⟩ := hd.written _ rfl
  have hnow : t.cycleNow = (s.csrWrite r (s.getX rs1)).cycleNow := (congrArg State.cycleNow hb :)
  exact ⟨t, ht, hd.pc, hnow ▸ hcycle, hcount ▸ hinstret, hd.old, hd.others, hd.bytes, hb.symm ▸ hbeside⟩

/-- A CSR that ignores writes reads the same through `csrrw`, which changes nothing else (R36, R40). -/
theorem csrrw_ignored_computes {s : State} {a : BitVec 12} {r : Csr} (h : s.csrAccess a true = some r)
    (hr : r.isInstret = false) (rd rs1 : Reg) {n : Nat} (hn : (s.csrRead r).toNat = n)
    (hignored : s.csrWrite r (s.getX rs1) = s) : Computes (.csrrw rd a rs1) s rd n 4 := by
  subst hn
  obtain ⟨t, ht, hret, hold, hx, hb, hbeside⟩ := csrrw_swaps h hr rd rs1
  rw [hignored] at hbeside
  exact ⟨t, ht, hret, hold, hx, hb, hbeside⟩

/-- A counter-enable register reads its 32 bits, and `csrrw` sets them (R37). -/
theorem csrrw_swaps_enables {s : State} {a : BitVec 12} {r : Csr} (h : s.csrAccess a true = some r)
    (hr : r.isInstret = false) (rd rs1 : Reg) (field : State → BitVec 32) (put : State → BitVec 32 → State)
    (hfield : ∀ u : State, field u.besideX = field u) (hread : s.csrRead r = (field s).setWidth 64)
    (hnew : field (s.csrWrite r (s.getX rs1)) = (s.getX rs1).setWidth 32)
    (hput : put (s.csrWrite r (s.getX rs1)).besideX (field s) = s.besideX) :
    ∃ t, exec (.csrrw rd a rs1) s = .next t ∧ Retired s t (s.pc.toNat + 4) ∧
      (field t).toNat = s.ux rs1 % 2 ^ 32 ∧ (t.ux rd = if rd = 0 then 0 else (field s).toNat) ∧
      SameX s t rd ∧ SameBytes s t ∧ put t.besideX (field s) = s.besideX := by
  obtain ⟨t, ht, hret, hold, hx, hb, hbeside⟩ := csrrw_swaps h hr rd rs1
  have hf : field t = (s.getX rs1).setWidth 32 := by
    rw [← hfield t, hbeside, hfield, hnew]
  have hlt := (field s).isLt
  have hval : s.wrap ((field s).setWidth 64).toNat = (field s).toNat := by
    rw [BitVec.toNat_setWidth, Nat.mod_eq_of_lt (by omega), s.wrap_of_lt hlt]
  rw [hread, hval] at hold
  exact ⟨t, ht, hret, hf ▸ BitVec.toNat_setWidth _ _, hold, hx, hb, hbeside.symm ▸ hput⟩

/-- `misa` as a number (R40). -/
theorem misaWord_toNat (c : Config) : (misaWord c).toNat =
    (if c.xlen = .rv32 then 2 ^ 30 else 2 ^ 63) + 2 ^ 8 + (if c.extA then 2 ^ 0 else 0) +
      (if c.extC then 2 ^ 2 else 0) + (if c.extD then 2 ^ 3 else 0) + (if c.extF then 2 ^ 5 else 0) +
      (if c.extM then 2 ^ 12 else 0) + (if c.hasS then 2 ^ 18 else 0) + (if c.hasU then 2 ^ 20 else 0) := by
  unfold misaWord
  generalize c.extA = a
  generalize c.extC = b
  generalize c.extD = d
  generalize c.extF = f
  generalize c.extM = m
  generalize c.hasS = hs
  generalize c.hasU = hu
  cases c.xlen <;> revert a b d f m hs hu <;> decide

/-! ## Hardware performance monitors (R33, R36) -/

/-- A number of a performance monitor is one of 3 to 31. -/
theorem hpmNumber_cases {P : BitVec 12 → Prop} (h : ∀ k : Nat, 3 ≤ k → k < 32 → P (BitVec.ofNat 12 k))
    (n : BitVec 12) (h3 : 3 ≤ n) (h32 : n < 32) : P n := by
  have h3 : 3 ≤ n.toNat := h3
  have h32 : n.toNat < 32 := h32
  have := h n.toNat h3 h32
  rwa [BitVec.ofNat_toNat, BitVec.setWidth_eq] at this

/-- The performance-monitor rows that exist in every configuration. -/
theorem csrAt_hpm (c : Config) (k : Nat) (h3 : 3 ≤ k) (h32 : k < 32) :
    csrAt c (0xC00 + BitVec.ofNat 12 k) = some (.hpmcounter k) ∧
      csrAt c (0xB00 + BitVec.ofNat 12 k) = some .hardwired ∧
      csrAt c (0x320 + BitVec.ofNat 12 k) = some .hardwired := by
  interval_cases k <;> exact ⟨rfl, rfl, rfl⟩

/-- The performance-monitor rows of RV32. -/
theorem csrAt_hpm_rv32 (c : Config) (hx : c.xlen = .rv32) (k : Nat) (h3 : 3 ≤ k) (h32 : k < 32) :
    csrAt c (0xC80 + BitVec.ofNat 12 k) = some (.hpmcounter k) ∧
      csrAt c (0xB80 + BitVec.ofNat 12 k) = some .hardwired := by
  have row (r : Csr) : existsIf (c.xlen == .rv32) r = some r := if_pos (by rw [hx]; rfl)
  interval_cases k <;> exact ⟨row _, row _⟩

/-- The machine-level performance monitors may be written, which they ignore. -/
theorem csrReadOnly_hpm (k : Nat) (h32 : k < 32) : csrReadOnly (0xB00 + BitVec.ofNat 12 k) = false ∧
    csrReadOnly (0x320 + BitVec.ofNat 12 k) = false ∧ csrReadOnly (0xB80 + BitVec.ofNat 12 k) = false := by
  interval_cases k <;> exact ⟨rfl, rfl, rfl⟩

/-- Settles O34: each CSR at its address, by the number it reads and by what a write of it leaves. -/
theorem countersEnablesAndHardwiredCsrs : Obligations.CountersEnablesAndHardwiredCsrs := by
  unfold Obligations.CountersEnablesAndHardwiredCsrs
  refine ⟨fun s => ⟨s.beginStep_cycleNow, s.beginStep_timeNow, s.beginStep_minstret⟩, ?_⟩
  intro s rd rs1 hm v cycle time instret counted c bit misa reads ignores swaps enables
  have read {a : BitVec 12} {r : Csr} {n : Nat} (hat : csrAt s.cfg a = some r) (hr : r.isFloat = false)
      (hn : (s.csrRead r).toNat = n) : reads a n :=
    csrrs_zero_computes (State.csrAccess_machine hm hat hr fun h => nomatch h) rd hn
  have access {a : BitVec 12} {r : Csr} (hat : csrAt s.cfg a = some r) (hr : r.isFloat = false)
      (hw : csrReadOnly a = false) : s.csrAccess a true = some r :=
    State.csrAccess_machine hm hat hr fun _ => hw
  have hardwired {a : BitVec 12} (hat : csrAt s.cfg a = some .hardwired) (hw : csrReadOnly a = false) :
      ignores a 0 :=
    ⟨read hat rfl rfl, csrrw_ignored_computes (access hat rfl hw) rfl rd rs1 rfl rfl⟩
  have hread32 (w : BitVec 32) : (w.setWidth 64).toNat = w.toNat := by
    rw [BitVec.toNat_setWidth]
    omega
  have hcounted : (s.minstret + 1).toNat = counted := BitVec.toNat_add _ _
  refine ⟨read (r := .cycle) rfl rfl rfl, read (r := .mcycle) rfl rfl rfl, read (r := .time) rfl rfl rfl,
    read (r := .instret) rfl rfl rfl, read (r := .minstret) rfl rfl rfl,
    hpmNumber_cases fun k h3 h32 => ?_, fun hU => ?_, fun hS => ?_, ?_, read (r := .mvendorid) rfl rfl rfl,
    read (r := .marchid) rfl rfl rfl, read (r := .mimpid) rfl rfl rfl, read (r := .mhartid) rfl rfl rfl, ?_⟩
  · obtain ⟨hview, hcounter, hevent⟩ := csrAt_hpm s.cfg k h3 h32
    obtain ⟨hwc, hwe, -⟩ := csrReadOnly_hpm k h32
    exact ⟨read hview rfl rfl, hardwired hcounter hwc, hardwired hevent hwe⟩
  · have hat : csrAt s.cfg 0x306 = some .mcounteren := if_pos hU
    exact ⟨read hat rfl (hread32 _), csrrw_swaps_enables (access hat rfl rfl) rfl rd rs1 State.mcounteren
      (fun u w => { u with mcounteren := w }) (fun _ => rfl) rfl rfl rfl⟩
  · have hat : csrAt s.cfg 0x106 = some .scounteren := if_pos hS
    exact ⟨read hat rfl (hread32 _), csrrw_swaps_enables (access hat rfl rfl) rfl rd rs1 State.scounteren
      (fun u w => { u with scounteren := w }) (fun _ => rfl) rfl rfl rfl⟩
  · have hat : csrAt s.cfg 0x301 = some .misa := rfl
    exact ⟨read hat rfl (misaWord_toNat s.cfg),
      csrrw_ignored_computes (access hat rfl rfl) rfl rd rs1 (misaWord_toNat s.cfg) rfl⟩
  split
  · next hx =>
    have hx : s.cfg.xlen = .rv64 := hx
    have hwrite (old w : BitVec 64) : withLow s.cfg.xlen old w = w := by rw [hx]; rfl
    refine ⟨csrrw_swaps_counter (access (a := 0xB00) (r := .mcycle) rfl rfl rfl) rd rs1 rfl ?_ hcounted rfl,
      csrrw_swaps_counter (access (a := 0xB02) (r := .minstret) rfl rfl rfl) rd rs1 rfl rfl ?_ rfl⟩
    · rw [s.cycleNow_csrWrite_mcycle, hwrite]
      rfl
    · rw [if_pos (show Csr.isInstret .minstret = true from rfl), s.minstret_csrWrite_minstret, hwrite]
      rfl
  · next hx =>
    have hx : s.cfg.xlen = .rv32 := hx
    have hv : (s.getX rs1).toNat < 2 ^ 32 := by
      have := s.getX_lt rs1
      rwa [State.modulus, hx] at this
    have hlow (old : BitVec 64) := withLow_rv32_toNat old (s.getX rs1) hv
    have hhigh (old : BitVec 64) := withHigh_toNat old (s.getX rs1) hv
    have row (r : Csr) : existsIf (s.cfg.xlen == .rv32) r = some r := if_pos (by rw [hx]; rfl)
    refine ⟨read (a := 0xC80) (row .cycleh) rfl (highWord_toNat _),
      read (a := 0xB80) (row .mcycleh) rfl (highWord_toNat _),
      read (a := 0xC81) (row .timeh) rfl (highWord_toNat _),
      read (a := 0xC82) (row .instreth) rfl (highWord_toNat _),
      read (a := 0xB82) (row .minstreth) rfl (highWord_toNat _),
      hpmNumber_cases fun k h3 h32 => ?_, ?_, ?_, ?_, ?_⟩
    · obtain ⟨hview, hcounter⟩ := csrAt_hpm_rv32 s.cfg hx k h3 h32
      obtain ⟨-, -, hw⟩ := csrReadOnly_hpm k h32
      exact ⟨read hview rfl rfl, hardwired hcounter hw⟩
    · refine csrrw_swaps_counter (access (a := 0xB00) (r := .mcycle) rfl rfl rfl) rd rs1 rfl ?_ hcounted rfl
      rw [s.cycleNow_csrWrite_mcycle, hx, hlow]
      rfl
    · refine csrrw_swaps_counter (access (a := 0xB80) (row .mcycleh) rfl rfl) rd rs1 (highWord_toNat _) ?_
        hcounted rfl
      rw [s.cycleNow_csrWrite_mcycleh, hhigh]
      rfl
    · refine csrrw_swaps_counter (access (a := 0xB02) (r := .minstret) rfl rfl rfl) rd rs1 rfl rfl ?_ rfl
      rw [if_pos (show Csr.isInstret .minstret = true from rfl), s.minstret_csrWrite_minstret, hx, hlow]
      rfl
    · exact csrrw_swaps_counter (access (a := 0xB82) (row .minstreth) rfl rfl) rd rs1 (highWord_toNat _) rfl
        (hhigh s.minstret) rfl

end Sys2Proof.Machine
end

section
/-! `mstatus` and `sstatus` (R41, R42), and the interrupt registers (R45, R46), bit by bit. -/

namespace Sys2Proof.Machine

open Sys2Proof

/-! ## Words made of flags -/

theorem getLsbD_bitAt (b : Bool) {n : Nat} (hn : n < 64) (k : Nat) :
    (bitAt b n).getLsbD k = (b && decide (k = n)) := by
  unfold bitAt
  cases b with
  | false => simp
  | true =>
    rw [if_pos rfl, BitVec.getLsbD_shiftLeft, BitVec.getLsbD_one]
    by_cases h : k = n
    · simp [h, hn]
    · simp [h]
      omega

theorem getLsbD_twoAt (b : Bool) {n : Nat} (hn : n + 1 < 64) (k : Nat) :
    (twoAt b n).getLsbD k = (b && decide (k = n + 1)) := by
  have h : twoAt b n = bitAt b (n + 1) := by
    unfold twoAt bitAt
    rw [Nat.add_comm n, BitVec.shiftLeft_add]
    rfl
  rw [h, getLsbD_bitAt b hn k]

/-- MPP is in bits 12 and 11 (R41). -/
theorem getLsbD_mppField (p : Priv) (k : Nat) : (BitVec.ofNat 64 (p.code * 2 ^ 11)).getLsbD k =
    ((p != .u && decide (k = 11)) || (p == .m && decide (k = 12))) := by
  have hword : BitVec.ofNat 64 (p.code * 2 ^ 11) = bitAt (p != .u) 11 ||| bitAt (p == .m) 12 := by
    cases p <;> decide
  rw [hword, BitVec.getLsbD_or, getLsbD_bitAt _ (by decide), getLsbD_bitAt _ (by decide)]

/-- FS is in bits 14 and 13 (R41). -/
theorem getLsbD_fsField (fs : BitVec 2) (k : Nat) : (fs.setWidth 64 <<< 13).getLsbD k =
    ((fs.getLsbD 0 && decide (k = 13)) || (fs.getLsbD 1 && decide (k = 14))) := by
  have hword : fs.setWidth 64 <<< 13 = bitAt (fs.getLsbD 0) 13 ||| bitAt (fs.getLsbD 1) 14 := by
    revert fs
    decide
  rw [hword, BitVec.getLsbD_or, getLsbD_bitAt _ (by decide), getLsbD_bitAt _ (by decide)]

/-- A bit of `mstatus` as it reads, SD apart (R41). -/
def State.mstatusBit (s : State) (k : Nat) : Bool :=
  let m := s.mstatus
  let is64 := s.cfg.xlen == .rv64
  m.sie && decide (k = 1) || m.mie && decide (k = 3) || m.spie && decide (k = 5) ||
    m.mpie && decide (k = 7) || m.spp && decide (k = 8) ||
    (m.mpp != .u && decide (k = 11) || m.mpp == .m && decide (k = 12)) ||
    (m.fs.getLsbD 0 && decide (k = 13) || m.fs.getLsbD 1 && decide (k = 14)) ||
    m.mprv && decide (k = 17) || m.sum && decide (k = 18) || m.mxr && decide (k = 19) ||
    m.tvm && decide (k = 20) || m.tw && decide (k = 21) || m.tsr && decide (k = 22) ||
    is64 && s.cfg.hasU && decide (k = 33) || is64 && s.cfg.hasS && decide (k = 35)

/-- Every bit of `mstatus` as it reads (R41). -/
theorem State.getLsbD_mstatusWord (s : State) (k : Nat) : s.mstatusWord.getLsbD k =
    (s.mstatusBit k || s.mstatus.fs == 3 && decide (k = s.cfg.xlen.bits - 1)) := by
  have hbits : s.cfg.xlen.bits - 1 < 64 := by cases s.cfg.xlen <;> decide
  simp only [State.mstatusWord, State.mstatusBit, BitVec.getLsbD_or, getLsbD_mppField, getLsbD_fsField,
    getLsbD_bitAt _ (show 1 < 64 by decide), getLsbD_bitAt _ (show 3 < 64 by decide),
    getLsbD_bitAt _ (show 5 < 64 by decide), getLsbD_bitAt _ (show 7 < 64 by decide),
    getLsbD_bitAt _ (show 8 < 64 by decide), getLsbD_bitAt _ (show 17 < 64 by decide),
    getLsbD_bitAt _ (show 18 < 64 by decide), getLsbD_bitAt _ (show 19 < 64 by decide),
    getLsbD_bitAt _ (show 20 < 64 by decide), getLsbD_bitAt _ (show 21 < 64 by decide),
    getLsbD_bitAt _ (show 22 < 64 by decide), getLsbD_bitAt _ hbits,
    getLsbD_twoAt _ (show 32 + 1 < 64 by decide), getLsbD_twoAt _ (show 34 + 1 < 64 by decide)]

/-- The bits of `mstatus` below SD, and between SD and bit 64. -/
theorem State.getLsbD_mstatusWord_of_ne (s : State) {k : Nat} (h : k ≠ s.cfg.xlen.bits - 1) :
    s.mstatusWord.getLsbD k = s.mstatusBit k := by
  rw [s.getLsbD_mstatusWord, decide_eq_false h, Bool.and_false, Bool.or_false]

/-! ## `mstatus` and `sstatus` -/

/-- The mode a write leaves in MPP (R41). -/
theorem legalMpp_getD (c : Config) (v : Word) (old : Priv) : (legalMpp c (v.extractLsb' 11 2)).getD old =
    if v.getLsbD 12 = false ∧ v.getLsbD 11 = false ∧ c.hasU = true then .u
    else if v.getLsbD 12 = false ∧ v.getLsbD 11 = true ∧ c.hasS = true then .s
    else if v.getLsbD 12 = true ∧ v.getLsbD 11 = true then .m else old := by
  have h0 : v.getLsbD 11 = (v.extractLsb' 11 2).getLsbD 0 := by simp
  have h1 : v.getLsbD 12 = (v.extractLsb' 11 2).getLsbD 1 := by simp
  rw [h0, h1]
  generalize v.extractLsb' 11 2 = m
  have hm : m = 0#2 ∨ m = 1#2 ∨ m = 2#2 ∨ m = 3#2 := by
    revert m
    decide
  rcases hm with rfl | rfl | rfl | rfl
  · cases hU : c.hasU <;> simp [legalMpp, hU]
  · cases hS : c.hasS <;> simp [legalMpp, hS]
  · simp [legalMpp]
  · simp [legalMpp]

/-- SD is the conjunction of the two bits of FS (R41). -/
theorem dirty_iff (fs : BitVec 2) : (fs == 3) = (fs.getLsbD 0 && fs.getLsbD 1) := by
  revert fs
  decide

/-- The bits of `mstatus` that belong to a field, but for SD (R41). -/
def mstatusFields : List Nat := [1, 3, 5, 7, 8, 11, 12, 13, 14, 17, 18, 19, 20, 21, 22, 33, 35]

/-- The reserved bits of `mstatus` read 0 (R41). -/
theorem State.mstatusBit_reserved (s : State) {k : Nat} (hk : k ∉ mstatusFields) : s.mstatusBit k = false := by
  simp only [mstatusFields, List.mem_cons, List.not_mem_nil, or_false, not_or] at hk
  simp [State.mstatusBit, hk]

theorem sdBit_cases (x : Xlen) : x.bits - 1 = 31 ∨ x.bits - 1 = 63 := by
  cases x <;> decide

/-- SD is the top bit, set where FS is 3 (R41). -/
theorem State.mstatusWord_sd (s : State) : s.mstatusWord.getLsbD (s.cfg.xlen.bits - 1) =
    (s.mstatus.fs.getLsbD 0 && s.mstatus.fs.getLsbD 1) := by
  have hsd : s.cfg.xlen.bits - 1 ∉ mstatusFields := by
    rcases sdBit_cases s.cfg.xlen with h | h <;> rw [h] <;> decide
  rw [s.getLsbD_mstatusWord, s.mstatusBit_reserved hsd, decide_eq_true rfl, Bool.false_or, Bool.and_true,
    dirty_iff]

/-- Settles O36: the fields a write leaves, read back bit by bit. -/
theorem mstatusWrites : Obligations.MstatusWrites := by
  unfold Obligations.MstatusWrites
  intro s v t b w hasS hasU is64
  have bit (k : Nat) (h31 : k ≠ 31) (h63 : k ≠ 63) : b k = t.mstatusBit k :=
    t.getLsbD_mstatusWord_of_ne (by rcases sdBit_cases t.cfg.xlen with h | h <;> omega)
  have reserved (k : Nat) (hk : k ∉ mstatusFields) (h31 : k ≠ 31) (h63 : k ≠ 63) : b k = false :=
    (bit k h31 h63).trans (t.mstatusBit_reserved hk)
  have hfs0 : t.mstatus.fs.getLsbD 0 = (s.cfg.extF && w 13) := by
    change (if s.cfg.extF then v.extractLsb' 13 2 else 0).getLsbD 0 = (s.cfg.extF && v.getLsbD 13)
    cases s.cfg.extF <;> simp
  have hfs1 : t.mstatus.fs.getLsbD 1 = (s.cfg.extF && w 14) := by
    change (if s.cfg.extF then v.extractLsb' 13 2 else 0).getLsbD 1 = (s.cfg.extF && v.getLsbD 14)
    cases s.cfg.extF <;> simp
  have h13 : b 13 = t.mstatus.fs.getLsbD 0 := by simp [bit, State.mstatusBit]
  have h14 : b 14 = t.mstatus.fs.getLsbD 1 := by simp [bit, State.mstatusBit]
  refine ⟨?mie, ?mpie, ?sie, ?spie, ?spp, ?sum, ?mxr, ?tvm, ?tsr, ?mprv, ?tw, h13.trans hfs0, h14.trans hfs1,
    legalMpp_getD s.cfg v s.mstatus.mpp, ?mppLow, ?mppHigh, ?low, ?sd, ?bit31, ?high,
    reserved 32 (by decide) (by decide) (by decide), ?uxl, reserved 34 (by decide) (by decide) (by decide), ?sxl⟩
  case mie | mpie | sie | spie | spp | sum | mxr | tvm | tsr | mprv | tw | uxl | sxl =>
    simp [bit, State.mstatusBit]
    rfl
  case mppLow | mppHigh => simp [bit, State.mstatusBit]
  case low =>
    intro k hk
    exact reserved k (by revert k; decide) (by revert k; decide) (by revert k; decide)
  case sd =>
    rw [h13, h14]
    exact t.mstatusWord_sd
  case bit31 =>
    intro hx
    have hsd : 31 ≠ t.cfg.xlen.bits - 1 := by
      rw [show t.cfg.xlen = .rv64 from hx]
      decide
    exact (t.getLsbD_mstatusWord_of_ne hsd).trans (t.mstatusBit_reserved (by decide))
  case high =>
    intro k h36 h63
    exact reserved k (by simp [mstatusFields]; omega) (by omega) (by omega)

/-- The bits that a write of `sstatus` changes (R42). -/
theorem sstatusWriteMask (k : Nat) :
    (0x000C6122#64).getLsbD k = decide (k ∈ [1, 5, 8, 13, 14, 18, 19]) := by
  by_cases hk : k < 64
  · interval_cases k <;> rfl
  · rw [BitVec.getLsbD_of_ge _ _ (by omega)]
    exact (decide_eq_false (by simp; omega)).symm

/-- A write of `sstatus` changes the bits in its write mask alone (R42). -/
theorem State.mstatusBit_writeSstatus (s : State) (v : Word) (hF : s.cfg.extF = true) (k : Nat) :
    (s.writeSstatus v).mstatusBit k =
      if (0x000C6122#64).getLsbD k then v.getLsbD k else s.mstatusBit k := by
  have hfs : (s.writeSstatus v).mstatus.fs = v.extractLsb' 13 2 := if_pos hF
  rw [sstatusWriteMask]
  by_cases hk : k ∈ [1, 5, 8, 13, 14, 18, 19]
  · rw [if_pos (decide_eq_true hk)]
    simp only [List.mem_cons, List.not_mem_nil, or_false] at hk
    rcases hk with rfl | rfl | rfl | rfl | rfl | rfl | rfl <;>
      simp [State.mstatusBit, hfs] <;> rfl
  · rw [if_neg (by simpa using hk)]
    simp only [List.mem_cons, List.not_mem_nil, or_false, not_or] at hk
    simp [State.mstatusBit, hk]
    rfl

/-- Settles O37: `sstatus` reads through its mask, and the bits in the write mask are those of the fields that it
writes. -/
theorem sstatusIsAWindow : Obligations.SstatusIsAWindow := by
  unfold Obligations.SstatusIsAWindow
  intro s v
  refine ⟨?_, fun _ hF => ⟨fun k _ hk => ?_, rfl⟩⟩
  · change s.mstatusWord &&& sstatusMask s.cfg.xlen = _
    cases s.cfg.xlen <;> rfl
  · have ht : (s.writeSstatus v).mstatusWord.getLsbD k = (s.writeSstatus v).mstatusBit k :=
      (s.writeSstatus v).getLsbD_mstatusWord_of_ne hk
    have hs : s.mstatusWord.getLsbD k = s.mstatusBit k := s.getLsbD_mstatusWord_of_ne hk
    change (s.writeSstatus v).mstatusWord.getLsbD k =
      if (0x000C6122#64).getLsbD k then v.getLsbD k else s.mstatusWord.getLsbD k
    rw [ht, hs, s.mstatusBit_writeSstatus v hF]

/-! ## The interrupt registers -/

/-- A mask of bits below 64, by its bits. -/
theorem getLsbD_mask {mask : Word} {l : List Nat} (hl : ∀ k ∈ l, k < 64)
    (h : ∀ k < 64, mask.getLsbD k = decide (k ∈ l)) (k : Nat) : mask.getLsbD k = decide (k ∈ l) := by
  by_cases hk : k < 64
  · exact h k hk
  · rw [BitVec.getLsbD_of_ge _ _ (by omega)]
    exact (decide_eq_false fun hm => hk (hl k hm)).symm

/-- The bits of the supervisor interrupts (R396). -/
theorem getLsbD_supervisorIrqs : ∀ k, (0x222#64).getLsbD k = decide (k ∈ [1, 5, 9]) :=
  getLsbD_mask (by decide) (by decide)

/-- The bits of the interrupts there are (R396). -/
theorem getLsbD_allIrqs (hasS : Bool) (k : Nat) : (if hasS then 0xAAA#64 else 0x888#64).getLsbD k =
    (decide (k ∈ [3, 7, 11]) || (hasS && decide (k ∈ [1, 5, 9]))) := by
  cases hasS with
  | true =>
    rw [if_pos rfl, getLsbD_mask (l := [3, 7, 11, 1, 5, 9]) (by decide) (by decide), Bool.true_and,
      ← Bool.decide_or]
    exact decide_eq_decide.2 (by simp; tauto)
  | false =>
    rw [if_neg Bool.false_ne_true, getLsbD_mask (l := [3, 7, 11]) (by decide) (by decide), Bool.false_and,
      Bool.or_false]

theorem State.getLsbD_delegatedIrqs (s : State) (k : Nat) :
    s.delegatedIrqs.getLsbD k = (decide (k ∈ [1, 5, 9]) && s.mideleg.getLsbD k) := by
  unfold State.delegatedIrqs
  rw [BitVec.getLsbD_and, Bool.and_comm]
  exact congrArg (· && _) (getLsbD_supervisorIrqs k)

/-- Every bit of `mip` with a given SEIP (R45). -/
theorem State.getLsbD_mipWith (s : State) (seip : Bool) (k : Nat) : (s.mipWith seip).getLsbD k =
    (s.cfg.hasS && s.ssip && decide (k = 1) || s.irq.msi && decide (k = 3) ||
      s.cfg.hasS && s.stip && decide (k = 5) || s.irq.mti && decide (k = 7) ||
      s.cfg.hasS && seip && decide (k = 9) || s.irq.mei && decide (k = 11)) := by
  simp only [State.mipWith, BitVec.getLsbD_or, getLsbD_bitAt _ (show 1 < 64 by decide),
    getLsbD_bitAt _ (show 3 < 64 by decide), getLsbD_bitAt _ (show 5 < 64 by decide),
    getLsbD_bitAt _ (show 7 < 64 by decide), getLsbD_bitAt _ (show 9 < 64 by decide),
    getLsbD_bitAt _ (show 11 < 64 by decide)]

/-- SEIP is bit 9 alone of `mip` (R45). -/
theorem State.getLsbD_mipWith_of_ne (s : State) (seip seip' : Bool) {k : Nat} (h : k ≠ 9) :
    (s.mipWith seip).getLsbD k = (s.mipWith seip').getLsbD k := by
  rw [s.getLsbD_mipWith, s.getLsbD_mipWith, decide_eq_false h, Bool.and_false, Bool.and_false]

/-- The bits of a word that a write through a mask leaves. -/
theorem getLsbD_maskedWrite (old v mask : Word) (k : Nat) :
    ((old &&& ~~~mask) ||| (v &&& mask)).getLsbD k = if mask.getLsbD k then v.getLsbD k else old.getLsbD k := by
  by_cases hk : k < 64
  · rw [BitVec.getLsbD_or, BitVec.getLsbD_and, BitVec.getLsbD_and, BitVec.getLsbD_not, decide_eq_true hk]
    cases mask.getLsbD k <;> simp
  · simp [BitVec.getLsbD_of_ge _ _ (Nat.le_of_not_lt hk)]

/-- Settles O35: what the four registers read and what a write to each leaves, bit by bit. -/
theorem interruptRegisterViews : Obligations.InterruptRegisterViews := by
  unfold Obligations.InterruptRegisterViews
  intro s v hasS machine supervisor mip
  refine ⟨rfl, rfl, fun hS => ⟨if_pos hS, if_pos hS⟩, fun k => ?mip, fun k => ?base, fun k => ?sip, rfl,
    fun k => ?sie, fun k => ?writeMie, rfl, fun k => ?writeSie, rfl, fun hS => if_pos hS,
    fun hS => if_neg (ne_true_of_eq_false hS), ?writeSip⟩
  case mip =>
    refine (s.getLsbD_mipWith (s.seipSw || s.irq.sei) k).trans ?_
    split
    · simp; rfl
    · simp
    · simp; rfl
    · simp
    · simp; rfl
    · simp
    · next h1 h3 h5 h7 h9 h11 =>
      rw [decide_eq_false h1, decide_eq_false h3, decide_eq_false h5, decide_eq_false h7, decide_eq_false h9,
        decide_eq_false h11]
      simp
  case base =>
    change (s.mipWith s.seipSw).getLsbD k = if k = 9 then _ else (s.mipWith (s.seipSw || s.irq.sei)).getLsbD k
    split
    · next h9 =>
      rw [s.getLsbD_mipWith, h9]
      simp
      rfl
    · next h9 => exact s.getLsbD_mipWith_of_ne _ _ h9
  case sip =>
    change (s.mipWord &&& s.delegatedIrqs).getLsbD k = _
    rw [BitVec.getLsbD_and, s.getLsbD_delegatedIrqs, Bool.and_comm]
    rfl
  case sie =>
    change (s.mie &&& s.delegatedIrqs).getLsbD k = _
    rw [BitVec.getLsbD_and, s.getLsbD_delegatedIrqs, Bool.and_comm]
  case writeMie =>
    change (v &&& (if s.cfg.hasS then 0xAAA else 0x888)).getLsbD k = _
    rw [BitVec.getLsbD_and]
    exact congrArg _ (getLsbD_allIrqs s.cfg.hasS k)
  case writeSie =>
    change ((s.mie &&& ~~~s.delegatedIrqs) ||| (v &&& s.delegatedIrqs)).getLsbD k = _
    rw [getLsbD_maskedWrite, s.getLsbD_delegatedIrqs]
    simp only [Bool.and_eq_true, decide_eq_true_eq]
    rfl
  case writeSip =>
    change (if s.mideleg.getLsbD 1 then { s with ssip := v.getLsbD 1 } else s) = _
    split <;> rfl

end Sys2Proof.Machine
end

section
/-! Data accesses by the physical bytes they resolve to (R56, R61, R64, R65): in one piece where the address is aligned,
byte by byte where MISALIGNED_DATA says so, and the ways a check fails. -/

namespace Sys2Proof.Machine

open Sys2Proof

/-! ## Addresses (R56) -/

theorem State.immAddress_toNat (s : State) (r : Reg) (imm : BitVec 12) :
    (s.addrPlus r (imm12 imm)).toNat = s.dataAddress r imm.toInt := by
  rw [State.addrPlus_toNat, imm12_toInt]

/-- The address of a compressed load or store: its field is scaled by the size (R99). -/
theorem State.scaledAddress_toNat (s : State) (r : Reg) {n : Nat} (imm : BitVec n) (k : Nat) (h : n + k < 64) :
    (s.addrPlus r ((imm ++ 0#k).setWidth 64)).toNat = s.dataAddress r (2 ^ k * imm.toNat : Nat) := by
  rw [State.addrPlus_toNat, scaled_toInt imm k h]

theorem State.registerAddress_toNat (s : State) (r : Reg) : (s.getX r).toNat = s.dataAddress r 0 := by
  unfold State.dataAddress
  rw [add_zero, State.wrap_natCast, Nat.mod_eq_of_lt (s.ux_lt r)]
  rfl

theorem State.dataAddress_lt (s : State) (r : Reg) (offset : Int) : s.dataAddress r offset < s.modulus := s.wrap_lt _

/-- The address of the next byte (R61). -/
theorem State.nextAddress_toNat (s : State) (v : Word) :
    (s.cfg.xlen.norm (v + 1)).toNat = (v.toNat + 1) % s.modulus := by
  rw [Xlen.norm_toNat, BitVec.toNat_add, show (1 : Word).toNat = 1 from rfl,
    Nat.mod_mod_of_dvd _ s.cfg.xlen.two_pow_dvd]
  rfl

/-! ## Checks that pass, and checks that fail (R57, R61, R67, R70) -/

/-- An access whose bytes all lie in regions that allow it passes the checks of translation and regions. -/
theorem State.physical_finds {s : State} {op : MemOp} {v : Word} {n p : Nat} (h : Finds s op.access v.toNat p)
    (hall : allIn s.cfg op.allowed (bytesFrom p n) = true) : s.physical op v n = .ok (s, bytesFrom p n) := by
  unfold State.physical
  rw [s.translate_finds op.access v p h, Res.bind_ok]
  exact if_pos hall

/-- An access that a region forbids, or whose walk leaves readable main memory, raises an access fault. -/
theorem State.physical_forbidden (s : State) (op : MemOp) (v : Word) (n : Nat) (h : Forbidden s op v.toNat n) :
    s.physical op v n = .raise (accessFault op.access) v := by
  unfold State.physical
  obtain ⟨-, ⟨p, hp, k, hk, hdeny⟩ | ⟨sch, hon, hv, hw⟩⟩ := h
  · have hn : ¬ allIn s.cfg op.allowed (bytesFrom p n) = true := fun hall => by
      obtain ⟨r, hr, ha⟩ := (pteIn_iff s op.allowed p n).1 hall k hk
      rw [hdeny r hr] at ha
      cases ha
    rw [s.translate_finds op.access v p hp, Res.bind_ok]
    exact if_neg hn
  · rw [BitVec.ofNat_toNat, BitVec.setWidth_eq] at hv hw
    rw [s.translate_unreadable op.access v sch hon hv hw, Res.bind_raise]

/-- An access the page tables do not map raises a page fault. -/
theorem State.physical_unmapped (s : State) (op : MemOp) (v : Word) (n : Nat) (h : Unmapped s op.access v) :
    s.physical op v n = .raise (pageFault op.access) v := by
  unfold State.physical
  rw [s.translate_unmapped op.access v h, Res.bind_raise]

theorem State.resolve_aligned (s : State) (op : MemOp) (v : Word) (n : Nat) (h : v.toNat % n = 0) :
    s.resolve op v n = s.physical op v n := if_pos h

/-- A misaligned access raises, but for a load or store that is made byte by byte (R61). -/
theorem State.resolve_misaligned (s : State) (op : MemOp) (v : Word) (n : Nat) (h : v.toNat % n ≠ 0)
    (ht : op = .load ∨ op = .store → s.cfg.misalignedData = .trap) :
    s.resolve op v n = .raise (misaligned op.access) v := by
  unfold State.resolve
  rw [if_neg h]
  cases op with
  | load => rw [ht (.inl rfl)]
  | store => rw [ht (.inr rfl)]
  | fetch | lr | sc | amo => rfl

/-! ## Byte by byte (R61, `bytewise`) -/

theorem State.resolve_bytewise (s : State) (op : MemOp) (v : Word) (n : Nat) (hop : op = .load ∨ op = .store)
    (hc : s.cfg.misalignedData = .bytewise) (h : v.toNat % n ≠ 0) :
    s.resolve op v n = s.physicalBytes op n v := by
  unfold State.resolve
  rw [if_neg h, hc]
  rcases hop with rfl | rfl <;> rfl

/-- One byte that every check allows. -/
theorem State.physical_byte (s : State) (op : MemOp) (v : Word) (p : Nat) (h : Reaches s op v.toNat 1 p) :
    s.physical op v 1 = .ok (s, [p]) := by
  rw [← s.resolve_aligned op v 1 (Nat.mod_one _)]
  exact s.resolve_reaches op v 1 p h

/-- Stepping to the next byte shifts the addresses of the bytes that follow. -/
theorem State.nextAddress_add (s : State) (v : Word) (k : Nat) :
    ((s.cfg.xlen.norm (v + 1)).toNat + k) % s.modulus = (v.toNat + (k + 1)) % s.modulus := by
  rw [s.nextAddress_toNat, Nat.mod_add_mod]
  congr 1
  omega

/-- Every byte allowed: the bytes in order. -/
theorem State.physicalBytes_reaches (s : State) (op : MemOp) (n : Nat) (v : Word) (p : Nat → Nat)
    (hv : v.toNat < s.modulus) (h : ∀ k, k < n → Reaches s op ((v.toNat + k) % s.modulus) 1 (p k)) :
    s.physicalBytes op n v = .ok (s, (List.range n).map p) := by
  induction n generalizing v p with
  | zero => rfl
  | succ n ih =>
    have h0 : Reaches s op v.toNat 1 (p 0) := by
      have := h 0 (Nat.succ_pos n)
      rwa [Nat.add_zero, Nat.mod_eq_of_lt hv] at this
    have hrest := ih (s.cfg.xlen.norm (v + 1)) (fun k => p (k + 1)) (Xlen.norm_lt _ _) fun k hk => by
      rw [s.nextAddress_add]
      exact h (k + 1) (by omega)
    unfold State.physicalBytes
    rw [s.physical_byte op v (p 0) h0, Res.bind_ok]
    dsimp only
    rw [hrest, Res.bind_ok, List.range_succ_eq_map, List.map_cons, List.map_map]
    rfl

/-- The lowest byte that fails decides. -/
theorem State.physicalBytes_raise (s : State) (op : MemOp) (n k : Nat) (v : Word) (p : Nat → Nat) (e : Exc)
    (tval : Word) (hv : v.toNat < s.modulus) (hk : k < n)
    (h : ∀ m, m < k → Reaches s op ((v.toNat + m) % s.modulus) 1 (p m))
    (hfail : ∀ w : Word, w.toNat = (v.toNat + k) % s.modulus → s.physical op w 1 = .raise e tval) :
    s.physicalBytes op n v = .raise e tval := by
  induction k generalizing n v p with
  | zero =>
    obtain ⟨n, rfl⟩ := Nat.exists_eq_succ_of_ne_zero (Nat.pos_iff_ne_zero.1 hk)
    unfold State.physicalBytes
    rw [hfail v (by rw [Nat.add_zero, Nat.mod_eq_of_lt hv]), Res.bind_raise]
  | succ k ih =>
    obtain ⟨n, rfl⟩ := Nat.exists_eq_succ_of_ne_zero (Nat.ne_zero_of_lt hk)
    have h0 : Reaches s op v.toNat 1 (p 0) := by
      have := h 0 (Nat.succ_pos k)
      rwa [Nat.add_zero, Nat.mod_eq_of_lt hv] at this
    have hrest := ih n (s.cfg.xlen.norm (v + 1)) (fun m => p (m + 1)) (Xlen.norm_lt _ _) (by omega)
      (fun m hm => by rw [s.nextAddress_add]; exact h (m + 1) (by omega))
      (fun w hw => hfail w (by rw [hw, s.nextAddress_add]))
    unfold State.physicalBytes
    rw [s.physical_byte op v (p 0) h0, Res.bind_ok]
    dsimp only
    rw [hrest, Res.bind_raise]

/-! ## The bytes of an access that every check allows -/

theorem State.mainBytes_of_noIo (s : State) (l : List Nat)
    (h : ∀ b ∈ l, ∃ r, s.cfg.regionAt b = some r ∧ r.io = false) : s.mainBytes l = .ok (s, l) := by
  have hio : ioByte s.cfg l = none := by
    unfold ioByte
    rw [List.find?_eq_none]
    intro b hb
    obtain ⟨r, hr, hi⟩ := h b hb
    simp [hr, hi]
  unfold State.mainBytes
  rw [hio]

theorem State.dataBytes_aligned {s : State} {op : MemOp} {v : Word} {a n p : Nat} (hv : v.toNat = a)
    (h : Reaches s op a n p) : s.dataBytes op v n = .ok (s, bytesFrom p n) := by
  subst hv
  exact s.dataBytes_reaches op v n p h

/-- A misaligned load or store that is made byte by byte, each byte found in main memory that allows it. -/
structure State.ReachesBytes (s : State) (op : MemOp) (a n : Nat) (p : Nat → Nat) : Prop where
  bytewise : s.cfg.misalignedData = .bytewise
  misaligned : a % n ≠ 0
  each : ∀ k, k < n → Reaches s op ((a + k) % s.modulus) 1 (p k)

theorem State.dataBytes_bytewise {s : State} {op : MemOp} {v : Word} {a n : Nat} {p : Nat → Nat}
    (hv : v.toNat = a) (hlt : a < s.modulus) (hop : op = .load ∨ op = .store) (h : s.ReachesBytes op a n p) :
    s.dataBytes op v n = .ok (s, (List.range n).map p) := by
  subst hv
  have hmain : s.mainBytes ((List.range n).map p) = .ok (s, (List.range n).map p) := by
    refine s.mainBytes_of_noIo _ fun b hb => ?_
    obtain ⟨k, hk, rfl⟩ := List.mem_map.1 hb
    obtain ⟨r, hr, -, hio⟩ := (h.each k (List.mem_range.1 hk)).allowed 0 Nat.one_pos
    exact ⟨r, hr, hio⟩
  unfold State.dataBytes
  rw [s.resolve_bytewise op v n hop h.bytewise h.misaligned, s.physicalBytes_reaches op n v p hlt h.each,
    Res.bind_ok]
  exact hmain

/-- A translation keeps the offset in the page, so where an access is found does too (R68, R70 step 8). -/
theorem Finds.mod_page {s : State} {acc : Access} {a p : Nat} (ha : a < 2 ^ 64) (h : Finds s acc a p) :
    p % 4096 = a % 4096 := by
  have hv : (BitVec.ofNat 64 a).toNat = a := by rw [BitVec.toNat_ofNat, Nat.mod_eq_of_lt ha]
  have ht := State.translate_mod (s.translate_finds acc (BitVec.ofNat 64 a) p (by rw [hv]; exact h))
  rwa [hv] at ht

theorem State.page_dvd_modulus (s : State) : 4096 ∣ s.modulus := by
  unfold State.modulus
  cases s.cfg.xlen <;> decide

theorem State.modulus_le (s : State) : s.modulus ≤ 2 ^ 64 := Nat.le_of_dvd (by decide) s.modulus_dvd

/-- The bytes of one access lie at different places in physical memory: their offsets in the page differ, even
where two pages are mapped to one. -/
theorem State.ReachesBytes.injective {s : State} {op : MemOp} {a n : Nat} {p : Nat → Nat}
    (h : s.ReachesBytes op a n p) (hn : n ≤ 8) {i j : Nat} (hi : i < n) (hj : j < n) (he : p i = p j) : i = j := by
  have hoff (k : Nat) (hk : k < n) : p k % 4096 = (a + k) % 4096 := by
    have hlt : (a + k) % s.modulus < 2 ^ 64 := lt_of_lt_of_le (Nat.mod_lt _ s.modulus_pos) s.modulus_le
    rw [(h.each k hk).found.mod_page hlt, Nat.mod_mod_of_dvd _ s.page_dvd_modulus]
  have h1 := hoff i hi
  have h2 := hoff j hj
  rw [he] at h1
  omega

/-! ## Reading and writing the bytes -/

theorem Mem.readAll_append (m : Mem) (l l' : List Nat) :
    m.readAll (l ++ l') = m.readAll l + 256 ^ l.length * m.readAll l' := by
  induction l with
  | nil => simp [Mem.readAll]
  | cons b rest ih =>
    simp only [List.cons_append, Mem.readAll, ih, List.length_cons, pow_succ]
    ring

/-- The little-endian number in a family of bytes (R58). -/
theorem readAll_range_map (s : State) (p : Nat → Nat) (n : Nat) :
    s.mem.readAll ((List.range n).map p) = s.bytesOf p n := by
  induction n with
  | zero => rfl
  | succ n ih =>
    rw [List.range_succ, List.map_append, Mem.readAll_append, ih]
    simp [Mem.readAll, State.bytesOf, Nat.mul_comm]

theorem lookup_putCells_range_map (n : Nat) (p : Nat → Nat) (cells : List Host.Cell) (v k : Nat) (hk : k < n)
    (hinj : ∀ i j, i < n → j < n → p i = p j → i = j) :
    ((putCells cells ((List.range n).map p) v).lookup (p k)).getD Mem.unlisted =
      BitVec.ofNat 8 (v / 256 ^ k) := by
  induction n generalizing p cells v k with
  | zero => omega
  | succ n ih =>
    rw [List.range_succ_eq_map, List.map_cons, List.map_map]
    unfold putCells
    cases k with
    | zero =>
      have hnot : p 0 ∉ (List.range n).map (p ∘ Nat.succ) := fun hm => by
        obtain ⟨j, hj, he⟩ := List.mem_map.1 hm
        have := hinj (j + 1) 0 (by have := List.mem_range.1 hj; omega) (Nat.succ_pos n) he
        omega
      rw [lookup_putCells_of_not_mem _ _ _ _ hnot, lookup_putCell]
      simp
    | succ k =>
      have := ih (p ∘ Nat.succ) (putCell cells (p 0) (BitVec.ofNat 8 v)) (v / 256) k (by omega)
        fun i j hi hj he => Nat.succ.inj (hinj (i + 1) (j + 1) (by omega) (by omega) he)
      rw [Nat.div_div_eq_div_mul, ← pow_succ'] at this
      exact this

/-- Each byte of a number written to different addresses (R58, R65). -/
theorem Mem.read_writeAll_range_map (m : Mem) (n : Nat) (p : Nat → Nat) (v k : Nat) (hk : k < n)
    (hinj : ∀ i j, i < n → j < n → p i = p j → i = j) :
    (m.writeAll ((List.range n).map p) v).read (p k) = BitVec.ofNat 8 (v / 256 ^ k) :=
  lookup_putCells_range_map n p m.cells v k hk hinj

end Sys2Proof.Machine
end

section
/-! Loads, stores and atomics that every check allows: their results and what they leave unchanged (R149 to R160,
R194 to R215). -/

namespace Sys2Proof.Machine

open Sys2Proof

/-! ## Loaded numbers (R149) -/

/-- A loaded number cut to `n` bytes and sign-extended. -/
theorem State.wrap_signExtend_bytes (s : State) {w n : Nat} (N : Nat) (hw : 2 ^ w = 256 ^ n) (h64 : w ≤ 64) :
    s.wrap ((((BitVec.ofNat 64 N).setWidth w).signExtend 64).toNat) = s.wrap (signedBytes n N) := by
  rw [← s.wrap_toInt, BitVec.toInt_signExtend_of_le h64, BitVec.setWidth_ofNat_of_le h64, BitVec.toInt_ofNat', hw]
  rfl

theorem State.wrap_sextB (s : State) (N : Nat) :
    s.wrap (sextB (BitVec.ofNat 64 N)).toNat = s.wrap (signedBytes 1 N) :=
  s.wrap_signExtend_bytes N (by decide) (by decide)

theorem State.wrap_sextH (s : State) (N : Nat) :
    s.wrap (sextH (BitVec.ofNat 64 N)).toNat = s.wrap (signedBytes 2 N) :=
  s.wrap_signExtend_bytes N (by decide) (by decide)

theorem State.wrap_sextW (s : State) (N : Nat) :
    s.wrap (sextW (BitVec.ofNat 64 N)).toNat = s.wrap (signedBytes 4 N) :=
  s.wrap_signExtend_bytes N (by decide) (by decide)

/-- A loaded number kept as it is. -/
theorem State.wrap_zext (s : State) (N : Nat) : s.wrap (zext (BitVec.ofNat 64 N)).toNat = s.wrap N := by
  unfold zext
  rw [BitVec.toNat_ofNat]
  apply s.wrap_congr
  omega

/-- A load that resolves to the bytes `l` completes with the number in them, extended (R64, R149). -/
theorem State.loadX_computes {s : State} {v : Word} {n : Nat} {l : List Nat} {ext : Word → Word} {N : Nat} {m : Int}
    (h : s.dataBytes .load v n = .ok (s, l)) (hN : s.mem.readAll l = N)
    (hm : s.wrap (ext (BitVec.ofNat 64 N)).toNat = s.wrap m) (rd : Reg) (len : Nat) :
    ∃ t, s.loadX rd v n ext len = .next t ∧ WroteX s t rd m (s.pc.toNat + len) := by
  have hput : s.loadX rd v n ext len = s.putX rd (ext (BitVec.ofNat 64 N)) len := by
    simp [State.loadX, State.load, h, hN, State.putX]
  rw [hput]
  exact s.putX_computes rd _ m len hm

/-- Settles O20: each load reads its bytes at the address it resolves to, and extends them as it does. -/
theorem loadResults : Obligations.LoadResults := by
  unfold Obligations.LoadResults
  intro s rd rs1 imm p a
  have hb {n : Nat} (h : Reaches s .load a n p) :
      s.dataBytes .load (s.addrPlus rs1 (imm12 imm)) n = .ok (s, bytesFrom p n) :=
    State.dataBytes_aligned (s.immAddress_toNat rs1 imm) h
  have hN (n : Nat) : s.mem.readAll (bytesFrom p n) = s.bytesAt p n := readAll_bytesFrom s p n
  exact ⟨
    fun h => ⟨State.loadX_computes (hb h) (hN 1) (s.wrap_sextB _) rd 4,
      State.loadX_computes (hb h) (hN 1) (s.wrap_zext _) rd 4⟩,
    fun h => ⟨State.loadX_computes (hb h) (hN 2) (s.wrap_sextH _) rd 4,
      State.loadX_computes (hb h) (hN 2) (s.wrap_zext _) rd 4⟩,
    fun h => ⟨State.loadX_computes (hb h) (hN 4) (s.wrap_sextW _) rd 4,
      State.loadX_computes (hb h) (hN 4) (s.wrap_zext _) rd 4⟩,
    fun h => State.loadX_computes (hb h) (hN 8) (s.wrap_zext _) rd 4⟩

/-! ## Stores (R157 to R160) -/

/-- A store that every check allows (R65). -/
theorem State.storeX_done {s : State} {v : Word} {a n p : Nat} (hv : v.toNat = a) (h : Reaches s .store a n p)
    (w : Word) {len : Nat} (hlen : len < 2 ^ 63) :
    ∃ t, s.storeX v n w len = .next t ∧ StoredBytes s t p n w.toNat ∧ Retired s t (s.pc.toNat + len) ∧
      (∀ r, t.ux r = s.ux r) ∧ t.besideMem = s.besideMem := by
  subst hv
  exact ⟨_, s.storeX_reaches v n w len p h, Stores.of_writeAll s p n _ len hlen⟩

/-- Settles O21: each store writes its bytes at the address it resolves to. -/
theorem storeResults : Obligations.StoreResults := by
  unfold Obligations.StoreResults
  intro s rs2 rs1 imm p a
  have hv := s.immAddress_toNat rs1 imm
  exact ⟨fun h => State.storeX_done hv h (s.getX rs2) (by decide),
    fun h => State.storeX_done hv h (s.getX rs2) (by decide),
    fun h => State.storeX_done hv h (s.getX rs2) (by decide),
    fun h => State.storeX_done hv h (s.getX rs2) (by decide)⟩

/-! ## Atomics (R194) -/

/-- Only the low `n` bytes of a number are stored. -/
theorem StoredBytes.congr {s t : State} {a n v w : Nat} (h : StoredBytes s t a n v)
    (hvw : v % 256 ^ n = w % 256 ^ n) : StoredBytes s t a n w where
  stored := fun k hk => by
    have hcut (x : Nat) : BitVec.ofNat 8 (x / 256 ^ k) = BitVec.ofNat 8 (x % 256 ^ n / 256 ^ k) := by
      have hsplit : 256 ^ n = 256 ^ k * 256 ^ (n - k) := by rw [← pow_add]; congr 1; omega
      have hdvd : 256 ∣ 256 ^ (n - k) := dvd_pow_self 256 (by omega)
      apply BitVec.eq_of_toNat_eq
      rw [BitVec.toNat_ofNat, BitVec.toNat_ofNat, hsplit, Nat.mod_mul_right_div_self]
      exact (Nat.mod_mod_of_dvd _ hdvd).symm
    rw [h.stored k hk, hcut v, hvw, ← hcut w]
  outside := h.outside

/-- A result in `x[rd]` from a state that differs in memory (R194). -/
theorem AmoDone.of_putX (s : State) (rd : Reg) (v : Word) (result : Int) (p n stored : Nat)
    (h : s.wrap v.toNat = s.wrap result) :
    ∃ t, State.putX { s with mem := s.mem.writeAll (bytesFrom p n) stored } rd v 4 = .next t ∧
      AmoDone s t rd p n result stored := by
  let u : State := { s with mem := s.mem.writeAll (bytesFrom p n) stored }
  obtain ⟨t, ht, hw⟩ := u.putX_computes rd v result 4 h
  have hmem : t.mem = u.mem := by
    cases ht
    exact u.setX_mem rd v
  exact ⟨t, ht, {
    pc := hw.pc
    counted := hw.counted
    value := hw.value
    others := hw.others
    memory := StoredBytes.of_writeAll s p n stored t hmem
    beside := (congrArg State.besideMem hw.beside :) }⟩

/-- An AMO that every check allows, from its old value and the low bytes of what it stores (R194). -/
theorem State.amoX_done {s : State} {rs1 : Reg} {n p : Nat} {ext : Word → Word} {op : Word → Word → Word} {rs2 : Reg}
    {result : Int} {stored : Nat} (h : Reaches s .amo (s.ux rs1) n p)
    (hres : s.wrap (ext (BitVec.ofNat 64 (s.bytesAt p n))).toNat = s.wrap result)
    (hop : (op (BitVec.ofNat 64 (s.bytesAt p n)) (s.getX rs2)).toNat % 256 ^ n = stored % 256 ^ n) (rd : Reg) :
    ∃ t, s.amoX rd rs2 rs1 n ext op = .next t ∧ AmoDone s t rd p n result stored := by
  rw [s.amoX_reaches rd rs2 rs1 n ext op p h]
  obtain ⟨t, ht, hdone⟩ := AmoDone.of_putX s rd (ext (BitVec.ofNat 64 (s.bytesAt p n))) result p n _ hres
  exact ⟨t, ht, { hdone with memory := hdone.memory.congr hop }⟩

theorem pick_toNat (b : Bool) (x y : Word) : (pick b x y).toNat = if b then y.toNat else x.toNat :=
  apply_ite BitVec.toNat _ _ _

/-- The low word of a number, as a two's complement number. -/
theorem setWidth32_toInt (x : Word) : (x.setWidth 32).toInt = signedBytes 4 (x.toNat % 2 ^ 32) := by
  rw [BitVec.toInt_eq_toNat_bmod, BitVec.toNat_setWidth]
  rfl

theorem ltSignedW_eq (x y : Word) :
    ltSignedW x y = decide (signedBytes 4 (x.toNat % 2 ^ 32) < signedBytes 4 (y.toNat % 2 ^ 32)) := by
  unfold ltSignedW
  rw [BitVec.slt_eq_decide, setWidth32_toInt, setWidth32_toInt]

theorem ltUnsignedW_eq (x y : Word) : ltUnsignedW x y = decide (x.toNat % 2 ^ 32 < y.toNat % 2 ^ 32) := by
  unfold ltUnsignedW
  rw [BitVec.ult_eq_decide, BitVec.toNat_setWidth, BitVec.toNat_setWidth]

/-- Settles O25: each word AMO by what its operation does to the low words. -/
theorem amoWordResults : Obligations.AmoWordResults := by
  unfold Obligations.AmoWordResults
  intro s rd rs2 rs1 aq rl p a old v r h
  have hpow : 256 ^ 4 = 2 ^ 32 := by norm_num
  have hold : old < 2 ^ 32 := hpow ▸ s.bytesAt_lt p 4
  have ht : (BitVec.ofNat 64 old).toNat = old := by rw [BitVec.toNat_ofNat]; omega
  have hx : (s.getX rs2).toNat % 2 ^ 32 = v := rfl
  have amo (op : Word → Word → Word) (stored : Nat)
      (hop : (op (BitVec.ofNat 64 old) (s.getX rs2)).toNat % 2 ^ 32 = stored % 2 ^ 32) :
      ∃ t, s.amoX rd rs2 rs1 4 sextW op = .next t ∧ AmoDone s t rd p 4 r stored :=
    State.amoX_done h (s.wrap_sextW_bytes p) (by rw [hpow]; exact hop) rd
  refine ⟨amo (fun _ x => x) _ ?_, amo (fun t x => t + x) _ ?_, amo (fun t x => t &&& x) _ ?_,
    amo (fun t x => t ||| x) _ ?_, amo (fun t x => t ^^^ x) _ ?_, amo (fun t x => pick (!ltSignedW t x) t x) _ ?_,
    amo (fun t x => pick (ltSignedW t x) t x) _ ?_, amo (fun t x => pick (!ltUnsignedW t x) t x) _ ?_,
    amo (fun t x => pick (ltUnsignedW t x) t x) _ ?_⟩
  case refine_1 => omega
  case refine_2 => rw [BitVec.toNat_add, ht]; omega
  case refine_3 => rw [BitVec.toNat_and, ht, Nat.and_mod_two_pow, Nat.and_mod_two_pow, ← hx, Nat.mod_mod]
  case refine_4 => rw [BitVec.toNat_or, ht, Nat.or_mod_two_pow, Nat.or_mod_two_pow, ← hx, Nat.mod_mod]
  case refine_5 => rw [BitVec.toNat_xor, ht, Nat.xor_mod_two_pow, Nat.xor_mod_two_pow, ← hx, Nat.mod_mod]
  case refine_6 =>
    rw [pick_toNat, ltSignedW_eq, ht, hx, Nat.mod_eq_of_lt hold]
    by_cases hc : signedBytes 4 old < signedBytes 4 v
    · simp [hc]
    · simp [hc]; omega
  case refine_7 =>
    rw [pick_toNat, ltSignedW_eq, ht, hx, Nat.mod_eq_of_lt hold]
    by_cases hc : signedBytes 4 old < signedBytes 4 v
    · simp [hc]; omega
    · simp [hc]
  case refine_8 =>
    rw [pick_toNat, ltUnsignedW_eq, ht, hx, Nat.mod_eq_of_lt hold]
    by_cases hc : old < v <;> simp [hc] <;> omega
  case refine_9 =>
    rw [pick_toNat, ltUnsignedW_eq, ht, hx, Nat.mod_eq_of_lt hold]
    by_cases hc : old < v <;> simp [hc] <;> omega

/-- Settles O26: each doubleword AMO by what its operation does to the doublewords. -/
theorem amoDoublewordResults : Obligations.AmoDoublewordResults := by
  unfold Obligations.AmoDoublewordResults
  intro s rd rs2 rs1 aq rl p hxlen a old v h
  have hpow : 256 ^ 8 = 2 ^ 64 := by norm_num
  have hold : old < 2 ^ 64 := hpow ▸ s.bytesAt_lt p 8
  have ht : (BitVec.ofNat 64 old).toNat = old := by rw [BitVec.toNat_ofNat]; omega
  have hx : (s.getX rs2).toNat = v := rfl
  have hslt : (BitVec.ofNat 64 old).slt (s.getX rs2) = decide (signedBytes 8 old < s.sx rs2) := by
    rw [BitVec.slt_eq_decide, BitVec.toInt_ofNat', ← s.signedView_getX, hxlen]
    rfl
  have hult : (BitVec.ofNat 64 old).ult (s.getX rs2) = decide (old < v) := by
    rw [BitVec.ult_eq_decide, ht, hx]
  have amo (op : Word → Word → Word) (stored : Nat)
      (hop : (op (BitVec.ofNat 64 old) (s.getX rs2)).toNat % 2 ^ 64 = stored % 2 ^ 64) :
      ∃ t, s.amoX rd rs2 rs1 8 zext op = .next t ∧ AmoDone s t rd p 8 old stored :=
    State.amoX_done h (s.wrap_zext old) (by rw [hpow]; exact hop) rd
  refine ⟨amo (fun _ x => x) _ ?_, amo (fun t x => t + x) _ ?_, amo (fun t x => t &&& x) _ ?_,
    amo (fun t x => t ||| x) _ ?_, amo (fun t x => t ^^^ x) _ ?_, amo (fun t x => pick (!t.slt x) t x) _ ?_,
    amo (fun t x => pick (t.slt x) t x) _ ?_, amo (fun t x => pick (!t.ult x) t x) _ ?_,
    amo (fun t x => pick (t.ult x) t x) _ ?_⟩
  case refine_1 => rw [hx]
  case refine_2 => rw [BitVec.toNat_add, ht, hx, Nat.mod_mod]
  case refine_3 => rw [BitVec.toNat_and, ht, hx]
  case refine_4 => rw [BitVec.toNat_or, ht, hx]
  case refine_5 => rw [BitVec.toNat_xor, ht, hx]
  case refine_6 =>
    rw [pick_toNat, hslt, ht, hx]
    by_cases hc : signedBytes 8 old < s.sx rs2 <;> simp [hc]
  case refine_7 =>
    rw [pick_toNat, hslt, ht, hx]
    by_cases hc : signedBytes 8 old < s.sx rs2 <;> simp [hc]
  case refine_8 =>
    rw [pick_toNat, hult, ht, hx]
    by_cases hc : old < v <;> simp [hc] <;> omega
  case refine_9 =>
    rw [pick_toNat, hult, ht, hx]
    by_cases hc : old < v <;> simp [hc] <;> omega

end Sys2Proof.Machine
end

section
/-! Every instruction with a data access begins by resolving it (R64, R65, R194 to R196), so that a check that fails
traps (R61, R67) and a byte of an `io` region stops the machine (R57). -/

namespace Sys2Proof.Machine

open Sys2Proof

/-! ## The access of each shape -/

theorem Res.bind_assoc {α β γ : Type} (r : Res α) (f : α → Res β) (g : β → Res γ) :
    (r.bind f).bind g = r.bind fun a => (f a).bind g := by
  cases r <;> rfl

theorem State.mainBytes_io {s : State} {l : List Nat} {b : Nat} (h : ioByte s.cfg l = some b) :
    s.mainBytes l = .refuse (.ioAccess b) := by
  unfold State.mainBytes
  rw [h]

/-- The outcome `r` begins, in `s`, by resolving an access to the `n` bytes at `v`; unless it is an `sc`, it then stops
where a byte lies in an `io` region. -/
def State.Accesses (s : State) (op : MemOp) (v : Word) (n : Nat) (r : Result) : Prop :=
  ∃ k : State × List Nat → Res State, r = s.commit ((s.resolve op v n).bind k) ∧
    (op ≠ .sc → ∀ p b, ioByte p.1.cfg p.2 = some b → k p = .refuse (.ioAccess b))

namespace State.Accesses

variable {s : State} {op : MemOp} {v : Word} {n len : Nat} {i : Instr} {rd rs1 rs2 : Reg} {r : Result}

theorem of_dataBytes (k : State × List Nat → Res State) :
    s.Accesses op v n (s.commit ((s.dataBytes op v n).bind k)) := by
  refine ⟨_, by unfold State.dataBytes; rw [Res.bind_assoc], fun _ p b hb => ?_⟩
  dsimp only
  rw [State.mainBytes_io hb, Res.bind_refuse]

theorem loadX {ext : Word → Word} : s.Accesses .load v n (s.loadX rd v n ext len) := by
  unfold State.loadX State.load
  rw [Res.bind_assoc]
  exact of_dataBytes _

theorem storeX {w : Word} : s.Accesses .store v n (s.storeX v n w len) := by
  unfold State.storeX State.store
  rw [Res.bind_assoc]
  exact of_dataBytes _

theorem lrX {ext : Word → Word} : s.Accesses .lr (s.getX rs1) n (s.lrX rd rs1 n ext) := by
  unfold State.lrX State.loadReserve
  rw [Res.bind_assoc]
  exact of_dataBytes _

theorem scX : s.Accesses .sc (s.getX rs1) n (s.scX rd rs2 rs1 n) := by
  unfold State.scX State.storeConditional
  rw [Res.bind_assoc]
  exact ⟨_, rfl, fun h => absurd rfl h⟩

theorem amoX {ext : Word → Word} {f : Word → Word → Word} :
    s.Accesses .amo (s.getX rs1) n (s.amoX rd rs2 rs1 n ext f) := by
  unfold State.amoX State.amo
  rw [Res.bind_assoc]
  exact of_dataBytes _

theorem fpLoadS (hf : s.mstatus.fs ≠ 0) : s.Accesses .load v 4 (s.fpLoadS i rd v len) := by
  unfold State.fpLoadS State.load
  rw [s.fpCheck_on i _ hf, Res.bind_assoc]
  exact of_dataBytes _

theorem fpLoadD (hf : s.mstatus.fs ≠ 0) : s.Accesses .load v 8 (s.fpLoadD i rd v len) := by
  unfold State.fpLoadD State.load
  rw [s.fpCheck_on i _ hf, Res.bind_assoc]
  exact of_dataBytes _

theorem fpStore (hf : s.mstatus.fs ≠ 0) : s.Accesses .store v n (s.fpStore i rs2 v n len) := by
  unfold State.fpStore State.store
  rw [s.fpCheck_on i _ hf, Res.bind_assoc]
  exact of_dataBytes _

theorem raises (h : s.Accesses op v n r) {e : Exc} {tval : Word} (hr : s.resolve op v n = .raise e tval) :
    r = .next (s.takeException e tval) := by
  obtain ⟨k, rfl, -⟩ := h
  rw [hr, Res.bind_raise, State.commit_raise]

theorem refuses (h : s.Accesses op v n r) (hop : op ≠ .sc) {l : List Nat} {b : Nat}
    (hr : s.resolve op v n = .ok (s, l)) (hb : ioByte s.cfg l = some b) : r = .refused (.ioAccess b) := by
  obtain ⟨k, rfl, hio⟩ := h
  rw [hr, Res.bind_ok, hio hop (s, l) b hb, State.commit_refuse]

end State.Accesses

/-! ## Every instruction with a data access -/

/-- An instruction whose data access `accessOf` gives makes it, each by the shape it has: at the base register plus the
offset, for a load, a store or an atomic, never as a fetch. -/
theorem exec_accesses {s : State} {i : Instr} {d : DataAccess} (h : accessOf i = some d)
    (hf : i.usesFp = true → s.mstatus.fs ≠ 0) :
    d.op ≠ .fetch ∧ ∃ v : Word, v.toNat = s.accessAddress d ∧ s.Accesses d.op v d.size (exec i s) := by
  cases i with
  | lb _ b o | lh _ b o | lw _ b o | lbu _ b o | lhu _ b o | lwu _ b o | ld _ b o =>
    cases h
    exact ⟨MemOp.noConfusion, _, s.immAddress_toNat b o, .loadX⟩
  | sb _ b o | sh _ b o | sw _ b o | sd _ b o =>
    cases h
    exact ⟨MemOp.noConfusion, _, s.immAddress_toNat b o, .storeX⟩
  | flw _ b o =>
    cases h
    exact ⟨MemOp.noConfusion, _, s.immAddress_toNat b o, .fpLoadS (hf rfl)⟩
  | fld _ b o =>
    cases h
    exact ⟨MemOp.noConfusion, _, s.immAddress_toNat b o, .fpLoadD (hf rfl)⟩
  | fsw _ b o | fsd _ b o =>
    cases h
    exact ⟨MemOp.noConfusion, _, s.immAddress_toNat b o, .fpStore (hf rfl)⟩
  | cLw _ b o =>
    cases h
    exact ⟨MemOp.noConfusion, _, s.scaledAddress_toNat b.reg o 2 (by decide), .loadX⟩
  | cLd _ b o =>
    cases h
    exact ⟨MemOp.noConfusion, _, s.scaledAddress_toNat b.reg o 3 (by decide), .loadX⟩
  | cLwsp _ o =>
    cases h
    exact ⟨MemOp.noConfusion, _, s.scaledAddress_toNat sp o 2 (by decide), .loadX⟩
  | cLdsp _ o =>
    cases h
    exact ⟨MemOp.noConfusion, _, s.scaledAddress_toNat sp o 3 (by decide), .loadX⟩
  | cSw _ b o =>
    cases h
    exact ⟨MemOp.noConfusion, _, s.scaledAddress_toNat b.reg o 2 (by decide), .storeX⟩
  | cSd _ b o =>
    cases h
    exact ⟨MemOp.noConfusion, _, s.scaledAddress_toNat b.reg o 3 (by decide), .storeX⟩
  | cSwsp _ o =>
    cases h
    exact ⟨MemOp.noConfusion, _, s.scaledAddress_toNat sp o 2 (by decide), .storeX⟩
  | cSdsp _ o =>
    cases h
    exact ⟨MemOp.noConfusion, _, s.scaledAddress_toNat sp o 3 (by decide), .storeX⟩
  | cFlw _ b o =>
    cases h
    exact ⟨MemOp.noConfusion, _, s.scaledAddress_toNat b.reg o 2 (by decide), .fpLoadS (hf rfl)⟩
  | cFld _ b o =>
    cases h
    exact ⟨MemOp.noConfusion, _, s.scaledAddress_toNat b.reg o 3 (by decide), .fpLoadD (hf rfl)⟩
  | cFlwsp _ o =>
    cases h
    exact ⟨MemOp.noConfusion, _, s.scaledAddress_toNat sp o 2 (by decide), .fpLoadS (hf rfl)⟩
  | cFldsp _ o =>
    cases h
    exact ⟨MemOp.noConfusion, _, s.scaledAddress_toNat sp o 3 (by decide), .fpLoadD (hf rfl)⟩
  | cFsw _ b o =>
    cases h
    exact ⟨MemOp.noConfusion, _, s.scaledAddress_toNat b.reg o 2 (by decide), .fpStore (hf rfl)⟩
  | cFsd _ b o =>
    cases h
    exact ⟨MemOp.noConfusion, _, s.scaledAddress_toNat b.reg o 3 (by decide), .fpStore (hf rfl)⟩
  | cFswsp _ o =>
    cases h
    exact ⟨MemOp.noConfusion, _, s.scaledAddress_toNat sp o 2 (by decide), .fpStore (hf rfl)⟩
  | cFsdsp _ o =>
    cases h
    exact ⟨MemOp.noConfusion, _, s.scaledAddress_toNat sp o 3 (by decide), .fpStore (hf rfl)⟩
  | lrW _ b | lrD _ b =>
    cases h
    exact ⟨MemOp.noConfusion, _, s.registerAddress_toNat b, .lrX⟩
  | scW _ _ b | scD _ _ b =>
    cases h
    exact ⟨MemOp.noConfusion, _, s.registerAddress_toNat b, .scX⟩
  | amoswapW _ _ b | amoaddW _ _ b | amoxorW _ _ b | amoandW _ _ b | amoorW _ _ b | amominW _ _ b | amomaxW _ _ b
  | amominuW _ _ b | amomaxuW _ _ b | amoswapD _ _ b | amoaddD _ _ b | amoxorD _ _ b | amoandD _ _ b | amoorD _ _ b
  | amominD _ _ b | amomaxD _ _ b | amominuD _ _ b | amomaxuD _ _ b =>
    cases h
    refine ⟨MemOp.noConfusion, _, s.registerAddress_toNat b, ?_⟩
    unfold exec
    exact .amoX
  | _ => cases h

/-! ## Checks that fail -/

/-- The code of the misaligned, access-fault or page-fault exception of a data access (R67, R394). -/
def MemOp.code (op : MemOp) (load store : Nat) : Nat :=
  match op with
  | .load | .lr => load
  | _ => store

theorem MemOp.code_misaligned {op : MemOp} (h : op ≠ .fetch) : (misaligned op.access).code = op.code 4 6 := by
  cases op with
  | fetch => exact absurd rfl h
  | load | store | lr | sc | amo => rfl

theorem MemOp.code_accessFault {op : MemOp} (h : op ≠ .fetch) : (accessFault op.access).code = op.code 5 7 := by
  cases op with
  | fetch => exact absurd rfl h
  | load | store | lr | sc | amo => rfl

theorem MemOp.code_pageFault {op : MemOp} (h : op ≠ .fetch) : (pageFault op.access).code = op.code 13 15 := by
  cases op with
  | fetch => exact absurd rfl h
  | load | store | lr | sc | amo => rfl

/-- An access whose resolution raises, with an address as trap value, traps. -/
theorem State.Accesses.traps {s : State} {op : MemOp} {v : Word} {n : Nat} {r : Result}
    (h : s.Accesses op v n r) (hs : AtInstruction s) {e : Exc} {w : Word} {code a : Nat}
    (hr : s.resolve op v n = .raise e w) (he : e.code = code) (hw : w.toNat = a) (ha : a < s.modulus) :
    ∃ t, r = .next t ∧ Trapped s t code a := by
  subst he hw
  exact ⟨_, h.raises hr, s.takeException_trapped e w hs ha⟩

/-- Settles O22: whatever the instruction, resolving its access raises the exception of the check that fails. -/
theorem dataAccessesTrap : Obligations.DataAccessesTrap := by
  unfold Obligations.DataAccessesTrap
  rintro s i ⟨op, base, offset, size⟩ hs hd hf a code
  obtain ⟨hop, v, hv, hacc⟩ := exec_accesses hd hf
  have ha : a < s.modulus := s.dataAddress_lt _ _
  have hofNat : BitVec.ofNat 64 a = v := by
    rw [← show v.toNat = a from hv, BitVec.ofNat_toNat, BitVec.setWidth_eq]
  have hcode (load store : Nat) : op.code load store = code load store := by
    cases op <;> rfl
  refine ⟨fun hmis hc => ?_, fun hforb => ?_, fun hal hun => ?_⟩
  · have hr := s.resolve_misaligned op v size (by rw [hv]; exact hmis) hc
    exact hacc.traps hs hr ((MemOp.code_misaligned hop).trans (hcode _ _)) hv ha
  · have hr := s.physical_forbidden op v size (by rw [hv]; exact hforb)
    rw [← s.resolve_aligned op v size (by rw [hv]; exact hforb.1)] at hr
    exact hacc.traps hs hr ((MemOp.code_accessFault hop).trans (hcode _ _)) hv ha
  · have hr := s.physical_unmapped op v size (hofNat ▸ hun)
    rw [← s.resolve_aligned op v size (by rw [hv]; exact hal)] at hr
    exact hacc.traps hs hr ((MemOp.code_pageFault hop).trans (hcode _ _)) hv ha

/-! ## `io` regions (R57) -/

theorem bytesFrom_add (a k m : Nat) : bytesFrom a (k + m) = bytesFrom a k ++ bytesFrom (a + k) m := by
  unfold bytesFrom
  rw [List.range_add, List.map_append, List.map_map]
  congr 1
  exact List.map_congr_left fun j _ => (Nat.add_assoc a k j).symm

/-- The first byte of the access that lies in an `io` region, as a search of the bytes finds it. -/
theorem TouchesIo.ioByte_eq {s : State} {op : MemOp} {a n p b : Nat} (h : TouchesIo s op a n p b) :
    ioByte s.cfg (bytesFrom p n) = some b := by
  obtain ⟨hle, hlt, ⟨r, hr, hio⟩, hbefore⟩ := h.first
  have hsplit : bytesFrom p n = bytesFrom p (b - p) ++ b :: bytesFrom (b + 1) (n - (b - p) - 1) := by
    obtain ⟨k, rfl⟩ := Nat.exists_eq_add_of_le hle
    obtain ⟨m, rfl⟩ := Nat.exists_eq_add_of_le (show k + 1 ≤ n by omega)
    rw [Nat.add_sub_cancel_left, show k + 1 + m - k - 1 = m by omega, ← bytesFrom_succ, ← bytesFrom_add]
    congr 1
    omega
  refine List.find?_eq_some_iff_append.2 ⟨by simp [hr, hio], _, _, hsplit, fun c hc => ?_⟩
  obtain ⟨h1, h2⟩ := (mem_bytesFrom _ _ _).1 hc
  obtain ⟨q, hq, hqio⟩ := hbefore c h1 (by omega)
  simp [hq, hqio]

/-- The checks of an access that touches an `io` region pass (R57). -/
theorem TouchesIo.resolve {s : State} {op : MemOp} {v : Word} {n p b : Nat} (h : TouchesIo s op v.toNat n p b) :
    s.resolve op v n = .ok (s, bytesFrom p n) := by
  rw [s.resolve_aligned op v n h.aligned]
  exact State.physical_finds h.found ((pteIn_iff s op.allowed p n).2 h.allowed)

/-- An `sc` to an `io` region: it fails as anywhere, and is refused where it would store (R196). -/
theorem State.scX_io {s : State} {rs1 : Reg} {n p b : Nat} (hn : 0 < n) (h : TouchesIo s .sc (s.ux rs1) n p b)
    (rd rs2 : Reg) :
    (s.resv ≠ some { addr := p, size := n } →
      ∃ t, s.scX rd rs2 rs1 n = .next t ∧ ReservationDone s t rd 1 none ∧ t.mem = s.mem) ∧
    (s.resv = some { addr := p, size := n } → s.cfg.scSpuriousFail = false →
      s.scX rd rs2 rs1 n = .refused (.ioAccess b)) := by
  have hres : s.resolve .sc (s.getX rs1) n = .ok (s, bytesFrom p n) := TouchesIo.resolve h
  unfold State.scX State.storeConditional
  rw [hres]
  dsimp only [Res.bind_ok]
  rw [firstByte_bytesFrom p n hn]
  constructor
  · intro hne
    rw [State.scSucceeds_unheld hne]
    exact ReservationDone.of_putX s rd 1 1 s.mem none rfl
  · intro heq hsp
    rw [State.scSucceeds_held heq hsp, if_pos rfl, State.mainBytes_io h.ioByte_eq, Res.bind_refuse, Res.bind_refuse,
      State.commit_refuse]

/-- Settles O24: the access resolves, and what follows finds the first byte in an `io` region; an `sc` looks at the
reservation before. -/
theorem ioAccessesAreRefused : Obligations.IoAccessesAreRefused := by
  unfold Obligations.IoAccessesAreRefused
  constructor
  · intro s i d p b hd hf hop h
    obtain ⟨-, v, hv, hacc⟩ := exec_accesses hd hf
    rw [← hv] at h
    exact hacc.refuses hop h.resolve h.ioByte_eq
  · intro s rd rs2 rs1 aq rl p b fails
    exact ⟨fun h => State.scX_io (by decide) h rd rs2, fun h => State.scX_io (by decide) h rd rs2⟩

end Sys2Proof.Machine
end

section
/-! Misaligned loads and stores that are made byte by byte (R61, MISALIGNED_DATA = bytewise): their results where every
byte is allowed, and the lowest byte that fails. -/

namespace Sys2Proof.Machine

open Sys2Proof

/-! ## Results -/

theorem State.bytesOf_lt (s : State) (p : Nat → Nat) (n : Nat) : s.bytesOf p n < 256 ^ n := by
  rw [← readAll_range_map]
  simpa using s.mem.readAll_lt ((List.range n).map p)

section
variable {s : State} {v : Word} {r : Reg} {o : Int} {n : Nat} {p : Nat → Nat}

/-- A load of an integer register, byte by byte. -/
theorem State.loadX_bytewise (hv : v.toNat = s.dataAddress r o) (h : s.ReachesBytes .load (s.dataAddress r o) n p)
    {ext : Word → Word} {m : Int} (hm : s.wrap (ext (BitVec.ofNat 64 (s.bytesOf p n))).toNat = s.wrap m) (rd : Reg)
    (len : Nat) : ∃ t, s.loadX rd v n ext len = .next t ∧ WroteX s t rd m (s.pc.toNat + len) :=
  State.loadX_computes (State.dataBytes_bytewise hv (s.dataAddress_lt r o) (.inl rfl) h) (readAll_range_map s p n) hm
    rd len

/-- The word that a load of a single-precision number reads, byte by byte, boxed (R27, R245). -/
theorem State.fpLoadS_bytewise (hv : v.toNat = s.dataAddress r o) (hf : s.mstatus.fs ≠ 0)
    (h : s.ReachesBytes .load (s.dataAddress r o) 4 p) (i : Instr) (rd : Reg) {len : Nat} (hlen : len < 2 ^ 63) :
    ∃ t, s.fpLoadS i rd v len = .next t ∧ WroteF s t rd (s.boxed (s.bytesOf p 4)) 0 len := by
  have hdata := State.dataBytes_bytewise hv (s.dataAddress_lt r o) (.inl rfl) h
  have hlt := s.bytesOf_lt p 4
  have hrun : s.fpLoadS i rd v len =
      .next ((s.setS rd ((BitVec.ofNat 64 (s.bytesOf p 4)).setWidth 32)).retire len) := by
    simp [State.fpLoadS, s.fpCheck_on i _ hf, State.load, hdata, readAll_range_map]
  have hw : ((BitVec.ofNat 64 (s.bytesOf p 4)).setWidth 32).toNat = s.bytesOf p 4 := by
    rw [BitVec.toNat_setWidth, BitVec.toNat_ofNat]
    omega
  have hbox := s.boxed_toNat ((BitVec.ofNat 64 (s.bytesOf p 4)).setWidth 32)
  rw [hw] at hbox
  exact ⟨_, hrun, hbox ▸ WroteF.of_setF s rd _ 0 len hlen⟩

/-- The doubleword that a load of a double-precision number reads, byte by byte (R277). -/
theorem State.fpLoadD_bytewise (hv : v.toNat = s.dataAddress r o) (hf : s.mstatus.fs ≠ 0) (hd : s.cfg.extD = true)
    (h : s.ReachesBytes .load (s.dataAddress r o) 8 p) (i : Instr) (rd : Reg) {len : Nat} (hlen : len < 2 ^ 63) :
    ∃ t, s.fpLoadD i rd v len = .next t ∧ WroteF s t rd (s.bytesOf p 8) 0 len := by
  have hdata := State.dataBytes_bytewise hv (s.dataAddress_lt r o) (.inl rfl) h
  have hlt := s.bytesOf_lt p 8
  have hrun : s.fpLoadD i rd v len = .next ((s.setF rd (BitVec.ofNat 64 (s.bytesOf p 8))).retire len) := by
    simp [State.fpLoadD, s.fpCheck_on i _ hf, State.load, hdata, readAll_range_map]
  have hw : (BitVec.ofNat 64 (s.bytesOf p 8)).toNat = s.bytesOf p 8 := by
    rw [BitVec.toNat_ofNat]
    omega
  have hdone := WroteF.of_setF s rd (BitVec.ofNat 64 (s.bytesOf p 8)) 0 len hlen
  rw [if_pos (show s.cfg.flen64 = true from hd), hw] at hdone
  exact ⟨_, hrun, hdone⟩

/-- What a store leaves, byte by byte (R65): the bytes lie at different places, so that each holds its part of the
number. -/
theorem State.ReachesBytes.stored {a : Nat} (h : s.ReachesBytes .store a n p) (hn : n ≤ 8) (w : Nat) {len : Nat}
    (hlen : len < 2 ^ 63) :
    let t := State.retire { s with mem := s.mem.writeAll ((List.range n).map p) w } len
    (∀ k, k < n → t.mem.read (p k) = BitVec.ofNat 8 (w / 256 ^ k)) ∧
      (∀ b, (∀ k, k < n → b ≠ p k) → t.mem.read b = s.mem.read b) ∧ Retired s t (s.pc.toNat + len) ∧
      (∀ r, t.ux r = s.ux r) ∧ t.besideMem = s.besideMem := by
  refine ⟨fun k hk => s.mem.read_writeAll_range_map n p w k hk fun i j hi hj he => h.injective hn hi hj he,
    fun b hb => Mem.read_writeAll_of_not_mem _ _ _ _ fun hm => ?_, ⟨State.retire_pc_toNat _ _ hlen, rfl⟩,
    fun _ => rfl, rfl⟩
  obtain ⟨k, hk, he⟩ := List.mem_map.1 hm
  exact hb k (List.mem_range.1 hk) he.symm

theorem State.store_bytewise (hv : v.toNat = s.dataAddress r o) (h : s.ReachesBytes .store (s.dataAddress r o) n p)
    (w : Word) : s.store v n w = .ok { s with mem := s.mem.writeAll ((List.range n).map p) w.toNat } := by
  unfold State.store
  rw [State.dataBytes_bytewise hv (s.dataAddress_lt r o) (.inr rfl) h, Res.bind_ok]

/-- A store of an integer register, byte by byte. -/
theorem State.storeX_bytewise (hv : v.toNat = s.dataAddress r o)
    (h : s.ReachesBytes .store (s.dataAddress r o) n p) (hn : n ≤ 8) (w : Word) {len : Nat} (hlen : len < 2 ^ 63) :
    ∃ t, s.storeX v n w len = .next t ∧ (∀ k, k < n → t.mem.read (p k) = BitVec.ofNat 8 (w.toNat / 256 ^ k)) ∧
      (∀ b, (∀ k, k < n → b ≠ p k) → t.mem.read b = s.mem.read b) ∧ Retired s t (s.pc.toNat + len) ∧
      (∀ r, t.ux r = s.ux r) ∧ t.besideMem = s.besideMem := by
  unfold State.storeX
  rw [State.store_bytewise hv h w, Res.bind_ok, State.commit_ok]
  exact ⟨_, rfl, h.stored hn w.toNat hlen⟩

/-- A store of a floating-point register, byte by byte. -/
theorem State.fpStore_bytewise (hv : v.toNat = s.dataAddress r o) (hf : s.mstatus.fs ≠ 0)
    (h : s.ReachesBytes .store (s.dataAddress r o) n p) (hn : n ≤ 8) (i : Instr) (rs2 : Reg) {len : Nat}
    (hlen : len < 2 ^ 63) :
    ∃ t, s.fpStore i rs2 v n len = .next t ∧
      (∀ k, k < n → t.mem.read (p k) = BitVec.ofNat 8 ((s.getF rs2).toNat / 256 ^ k)) ∧
      (∀ b, (∀ k, k < n → b ≠ p k) → t.mem.read b = s.mem.read b) ∧ Retired s t (s.pc.toNat + len) ∧
      (∀ r, t.ux r = s.ux r) ∧ t.besideMem = s.besideMem := by
  unfold State.fpStore
  rw [s.fpCheck_on i _ hf, State.store_bytewise hv h (s.getF rs2), Res.bind_ok, State.commit_ok]
  exact ⟨_, rfl, h.stored hn (s.getF rs2).toNat hlen⟩

end

/-! ## The lowest byte that fails -/

/-- A misaligned load or store whose bytes below the `k`-th are allowed raises what the `k`-th raises. -/
theorem State.resolve_failingByte {s : State} {op : MemOp} {v w : Word} {n k : Nat} {p : Nat → Nat} {e : Exc}
    (hop : op = .load ∨ op = .store) (hc : s.cfg.misalignedData = .bytewise) (hv : v.toNat < s.modulus)
    (hmis : v.toNat % n ≠ 0) (hk : k < n)
    (h : ∀ m, m < k → Reaches s op ((v.toNat + m) % s.modulus) 1 (p m))
    (hw : w.toNat = (v.toNat + k) % s.modulus) (hfail : s.physical op w 1 = .raise e w) :
    s.resolve op v n = .raise e w := by
  rw [s.resolve_bytewise op v n hop hc hmis]
  refine s.physicalBytes_raise op n k v p e w hv hk h fun u hu => ?_
  rw [BitVec.eq_of_toNat_eq (hu.trans hw.symm)]
  exact hfail

/-- Settles O23: each load and store by its shape, at its address; and the exception of the lowest byte that fails, for
every instruction with such an access. -/
theorem bytewiseMisalignedAccesses : Obligations.BytewiseMisalignedAccesses := by
  unfold Obligations.BytewiseMisalignedAccesses
  intro s hc
  constructor
  · intro rd rs1 rs2 imm rd' rs1' rs2' o5 o6 p reaches loads stores floats4 floats8 storesF a a4 a8 s4 s8
    have each {op : MemOp} {a n : Nat} (h : reaches op a n) : s.ReachesBytes op a n p := ⟨hc, h.1, h.2⟩
    have ha := s.immAddress_toNat rs1 imm
    have ha4 := s.scaledAddress_toNat rs1'.reg o5 2 (by decide)
    have ha8 := s.scaledAddress_toNat rs1'.reg o5 3 (by decide)
    have hs4 := s.scaledAddress_toNat sp o6 2 (by decide)
    have hs8 := s.scaledAddress_toNat sp o6 3 (by decide)
    exact ⟨
      fun h => State.loadX_bytewise ha (each h) (s.wrap_sextH _) rd 4,
      fun h => State.loadX_bytewise ha (each h) (s.wrap_zext _) rd 4,
      fun h => State.loadX_bytewise ha (each h) (s.wrap_sextW _) rd 4,
      fun h => State.loadX_bytewise ha (each h) (s.wrap_zext _) rd 4,
      fun h => State.loadX_bytewise ha (each h) (s.wrap_zext _) rd 4,
      fun h => State.loadX_bytewise ha4 (each h) (s.wrap_sextW _) rd'.reg 2,
      fun h => State.loadX_bytewise ha8 (each h) (s.wrap_zext _) rd'.reg 2,
      fun h => State.loadX_bytewise hs4 (each h) (s.wrap_sextW _) rd 2,
      fun h => State.loadX_bytewise hs8 (each h) (s.wrap_zext _) rd 2,
      fun h => State.storeX_bytewise ha (each h) (by decide) (s.getX rs2) (by decide),
      fun h => State.storeX_bytewise ha (each h) (by decide) (s.getX rs2) (by decide),
      fun h => State.storeX_bytewise ha (each h) (by decide) (s.getX rs2) (by decide),
      fun h => State.storeX_bytewise ha4 (each h) (by decide) (s.getX rs2'.reg) (by decide),
      fun h => State.storeX_bytewise ha8 (each h) (by decide) (s.getX rs2'.reg) (by decide),
      fun h => State.storeX_bytewise hs4 (each h) (by decide) (s.getX rs2) (by decide),
      fun h => State.storeX_bytewise hs8 (each h) (by decide) (s.getX rs2) (by decide),
      fun hf h => State.fpLoadS_bytewise ha hf (each h) _ rd (by decide),
      fun hf h => State.fpLoadS_bytewise ha4 hf (each h) _ rd'.reg (by decide),
      fun hf h => State.fpLoadS_bytewise hs4 hf (each h) _ rd (by decide),
      fun hf hd h => State.fpLoadD_bytewise ha hf hd (each h) _ rd (by decide),
      fun hf hd h => State.fpLoadD_bytewise ha8 hf hd (each h) _ rd'.reg (by decide),
      fun hf hd h => State.fpLoadD_bytewise hs8 hf hd (each h) _ rd (by decide),
      fun hf h => State.fpStore_bytewise ha hf (each h) (by decide) _ rs2 (by decide),
      fun hf h => State.fpStore_bytewise ha4 hf (each h) (by decide) _ rs2'.reg (by decide),
      fun hf h => State.fpStore_bytewise hs4 hf (each h) (by decide) _ rs2 (by decide),
      fun hf h => State.fpStore_bytewise ha hf (each h) (by decide) _ rs2 (by decide),
      fun hf h => State.fpStore_bytewise ha8 hf (each h) (by decide) _ rs2'.reg (by decide),
      fun hf h => State.fpStore_bytewise hs8 hf (each h) (by decide) _ rs2 (by decide)⟩
  · intro i d k p hs hd hf hop hk hmis a code hbelow
    obtain ⟨hfetch, v, hv, hacc⟩ := exec_accesses hd hf
    have hlt : a k < s.modulus := Nat.mod_lt _ s.modulus_pos
    have hw : (BitVec.ofNat 64 (a k)).toNat = a k := by
      rw [BitVec.toNat_ofNat, Nat.mod_eq_of_lt (lt_of_lt_of_le hlt s.modulus_le)]
    have hcode (load store : Nat) : d.op.code load store = code load store := by
      change _ = if d.op = .load then load else store
      rcases hop with e | e <;> rw [e] <;> rfl
    have hraise {e : Exc} (hfail : s.physical d.op (BitVec.ofNat 64 (a k)) 1 = .raise e (BitVec.ofNat 64 (a k))) :
        s.resolve d.op v d.size = .raise e (BitVec.ofNat 64 (a k)) := by
      rw [← hv] at hmis
      refine State.resolve_failingByte (p := p) hop hc ?_ hmis hk ?_ ?_ hfail
      · rw [hv]
        exact s.dataAddress_lt _ _
      · rw [hv]
        exact hbelow
      · rw [hw, hv]
    constructor
    · intro hforb
      rw [← hw] at hforb
      exact hacc.traps hs (hraise (s.physical_forbidden d.op _ 1 hforb))
        ((MemOp.code_accessFault hfetch).trans (hcode _ _)) hw hlt
    · intro hun
      exact hacc.traps hs (hraise (s.physical_unmapped d.op _ 1 hun))
        ((MemOp.code_pageFault hfetch).trans (hcode _ _)) hw hlt

end Sys2Proof.Machine
end

section
/-! Which instructions change a byte of memory (R65, R194, R196), where the hardware does not update page-table entries
(R70 step 7). -/

namespace Sys2Proof.Machine

open Sys2Proof

/-! ## Accesses that change nothing -/

section
variable {s : State} (hc : s.cfg.pteAdUpdate = .fault)
include hc

theorem State.leaf_unchanged (w : Walk) (i a pte : Nat) : (s.leaf w i a pte).Ensures fun p => p.1 = s := by
  unfold State.leaf
  split
  · exact .raise
  · split
    · exact .raise
    · split
      · rw [hc]
        exact .raise
      · exact .ok rfl

theorem State.walkLevel_unchanged {w : Walk} {g : Bool} {i table : Nat} {r : Res (State × Nat)}
    (h : s.walkLevel w g i table = .done r) : r.Ensures fun p => p.1 = s := by
  unfold State.walkLevel at h
  dsimp only at h
  split at h
  · split at h
    · cases h
      exact .raise
    · split at h
      · cases h
      · cases h
        exact State.leaf_unchanged hc w i _ _
  · cases h
    exact .raise

theorem State.walk_unchanged (w : Walk) (i : Nat) (g : Bool) (table : Nat) :
    (s.walk w g i table).Ensures fun p => p.1 = s := by
  induction i generalizing g table with
  | zero =>
    unfold State.walk
    split
    · exact .raise
    · next hr => exact State.walkLevel_unchanged hc hr
  | succ i ih =>
    unfold State.walk
    split
    · exact ih _ _
    · next hr => exact State.walkLevel_unchanged hc hr

/-- Without hardware updates of A and D a translation changes nothing (R70). -/
theorem State.translate_unchanged (acc : Access) (v : Word) : (s.translate acc v).Ensures fun p => p.1 = s := by
  unfold State.translate
  dsimp only
  split
  · exact .ok rfl
  · split
    · exact .ok rfl
    · split
      · exact State.walk_unchanged hc _ _ _ _
      · exact .raise

theorem State.physical_unchanged (op : MemOp) (v : Word) (n : Nat) :
    (s.physical op v n).Ensures fun p => p.1 = s :=
  (State.translate_unchanged hc op.access v).bind fun p hp => by
    dsimp only
    split
    · exact .ok hp
    · exact .raise

theorem State.physicalBytes_unchanged (op : MemOp) (n : Nat) (v : Word) :
    (s.physicalBytes op n v).Ensures fun p => p.1 = s := by
  induction n generalizing v with
  | zero => exact .ok rfl
  | succ n ih =>
    refine (State.physical_unchanged hc op v 1).bind fun p hp => ?_
    obtain ⟨u, first⟩ := p
    obtain rfl : u = s := hp
    exact (ih _).bind fun q hq => .ok hq

theorem State.resolve_unchanged (op : MemOp) (v : Word) (n : Nat) : (s.resolve op v n).Ensures fun p => p.1 = s := by
  unfold State.resolve
  split
  · exact State.physical_unchanged hc op v n
  · split
    · exact State.physicalBytes_unchanged hc _ n v
    · exact State.physicalBytes_unchanged hc _ n v
    · exact .raise

theorem State.dataBytes_unchanged (op : MemOp) (v : Word) (n : Nat) :
    (s.dataBytes op v n).Ensures fun p => p.1 = s :=
  (State.resolve_unchanged hc op v n).bind fun p hp q hq => by
    obtain ⟨e, -⟩ := State.mainBytes_eq_ok _ _ _ _ hq
    exact e.trans hp

theorem State.load_unchanged (v : Word) (n : Nat) : (s.load v n).Ensures fun p => p.1 = s :=
  (State.dataBytes_unchanged hc .load v n).bind fun _ hp => .ok hp

theorem State.loadReserve_mem (v : Word) (n : Nat) : (s.loadReserve v n).Ensures fun p => p.1.mem = s.mem :=
  (State.dataBytes_unchanged hc .lr v n).bind fun _ hp => .ok (congrArg State.mem hp :)

end

/-! ## The shapes of `Machine/Effects.lean` -/

theorem SameBytes.of_mem {s t : State} (h : t.mem = s.mem) : SameBytes s t := fun a => by rw [h]

@[simp] theorem State.retire_mem (s : State) (len : Nat) : (s.retire len).mem = s.mem := rfl

@[simp] theorem State.setS_mem (s : State) (r : Reg) (v : BitVec 32) : (s.setS r v).mem = s.mem := rfl

@[simp] theorem State.putS_mem (s : State) (rd : Reg) (r : FpResult) : (s.putS rd r).mem = s.mem := by simp [State.putS]

@[simp] theorem State.putD_mem (s : State) (rd : Reg) (r : FpResult) : (s.putD rd r).mem = s.mem := by simp [State.putD]

/-- Whatever next state the outcome is, every byte of memory reads there as in `s`. -/
def KeepsBytes (s : State) (r : Result) : Prop := ∀ t, r = .next t → SameBytes s t

theorem KeepsBytes.next {s t : State} (h : t.mem = s.mem) : KeepsBytes s (.next t) := by
  rintro _ ⟨⟩
  exact .of_mem h

/-- Where the fetch changed nothing, a trap restores nothing: a rule keeps every byte if its own effect does. -/
theorem KeepsBytes.commit {s : State} (hb : s.beforeFetch = none) {r : Res State}
    (h : r.Ensures fun t => t.mem = s.mem) : KeepsBytes s (s.commit r) := fun t ht => by
  rcases (s.commit_eq_next t r).1 ht with e | ⟨e, tval, -, rfl⟩
  · exact .of_mem (h t e)
  · refine .of_mem ?_
    unfold State.takeException
    rw [State.trapEntry_mem, State.discardFetch_mem, hb, Option.getD_none]

namespace KeepsBytes

variable {s : State} {i : Instr} {rd rs1 : Reg} {v target : Word} {n len : Nat} {rm : BitVec 3}

theorem putX : KeepsBytes s (s.putX rd v len) := .next (by simp)

theorem branch (hb : s.beforeFetch = none) {taken : Bool} {o : Word} : KeepsBytes s (s.branch taken o) := by
  unfold State.branch
  split
  · exact .commit hb (Res.Ensures.bind (P := fun _ => True) (fun _ _ => trivial) fun _ _ => .ok rfl)
  · exact .next rfl

theorem jump (hb : s.beforeFetch = none) : KeepsBytes s (s.jump rd target) :=
  .commit hb (Res.Ensures.bind (P := fun _ => True) (fun _ _ => trivial) fun _ _ => .ok (by simp))

theorem cBranch {taken : Bool} {o : Word} : KeepsBytes s (s.cBranch taken o) := by
  refine .next ?_
  split <;> rfl

theorem cJump : KeepsBytes s (s.cJump rd target) := .next (by simp)

theorem loadX (hc : s.cfg.pteAdUpdate = .fault) (hb : s.beforeFetch = none) {ext : Word → Word} :
    KeepsBytes s (s.loadX rd v n ext len) :=
  .commit hb ((State.load_unchanged hc v n).bind fun p hp => .ok (by simp [hp]))

theorem lrX (hc : s.cfg.pteAdUpdate = .fault) (hb : s.beforeFetch = none) {ext : Word → Word} :
    KeepsBytes s (s.lrX rd rs1 n ext) :=
  .commit hb ((State.loadReserve_mem hc _ n).bind fun p hp => .ok (by simp [hp]))

theorem csr (hb : s.beforeFetch = none) {a : BitVec 12} {writes : Bool} {newValue : Word → Word} :
    KeepsBytes s (s.csr i a rd writes newValue) :=
  .commit hb fun t ht => by
    obtain ⟨r, -, rfl⟩ := s.csrInstr_eq_ok t i a rd writes newValue ht
    obtain ⟨-, -, -, -, -, -, -, hmem, -⟩ := s.csrWrite_frame r (s.cfg.xlen.norm (newValue (s.csrBase r)))
    rw [State.csrRetire_eq]
    change ((if writes then s.csrWrite r (s.cfg.xlen.norm (newValue (s.csrBase r))) else s).setX rd _).mem = s.mem
    rw [State.setX_mem]
    split
    · exact hmem
    · rfl

theorem privileged (hb : s.beforeFetch = none) {allowed : Bool} {t : State} (ht : SameBytes s t) :
    KeepsBytes s (s.privileged i allowed t) := fun u hu => by
  unfold State.privileged at hu
  cases allowed with
  | true =>
    cases hu
    exact ht
  | false => exact KeepsBytes.commit hb (s.illegal_ensures i _) u hu

theorem fpS (hb : s.beforeFetch = none) {op : Rounding → FpResult} : KeepsBytes s (s.fpS i rd rm op) :=
  .commit hb (State.fpRounded_ensures fun _ => .ok (by simp))

theorem fpD (hb : s.beforeFetch = none) {op : Rounding → FpResult} : KeepsBytes s (s.fpD i rd rm op) :=
  .commit hb (State.fpRounded_ensures fun _ => .ok (by simp))

theorem fpExactS (hb : s.beforeFetch = none) {r : FpResult} : KeepsBytes s (s.fpExactS i rd r) :=
  .commit hb (State.fpCheck_ensures (.ok (by simp)))

theorem fpExactD (hb : s.beforeFetch = none) {r : FpResult} : KeepsBytes s (s.fpExactD i rd r) :=
  .commit hb (State.fpCheck_ensures (.ok (by simp)))

theorem fpX (hb : s.beforeFetch = none) {fl : FpFlags} : KeepsBytes s (s.fpX i rd v fl) :=
  .commit hb (State.fpCheck_ensures (.ok (by simp)))

theorem fpToX (hb : s.beforeFetch = none) {ty : IntType} {op : Rounding → Int × FpFlags} :
    KeepsBytes s (s.fpToX i rd rm ty op) :=
  .commit hb (State.fpRounded_ensures fun _ => .ok (by simp))

theorem fpLoadS (hc : s.cfg.pteAdUpdate = .fault) (hb : s.beforeFetch = none) :
    KeepsBytes s (s.fpLoadS i rd v len) :=
  .commit hb (State.fpCheck_ensures ((State.load_unchanged hc v 4).bind fun p hp => .ok (by simp [hp])))

theorem fpLoadD (hc : s.cfg.pteAdUpdate = .fault) (hb : s.beforeFetch = none) :
    KeepsBytes s (s.fpLoadD i rd v len) :=
  .commit hb (State.fpCheck_ensures ((State.load_unchanged hc v 8).bind fun p hp => .ok (by simp [hp])))

end KeepsBytes

/-- A fence forgets old values, and leaves every byte as it is (R71, R175). -/
theorem State.fenceVma_sameBytes (s : State) (vaddr asid : Option Word) : SameBytes s (s.fenceVma vaddr asid) := by
  intro a
  change (if _ then s.mem.fencePte else s.mem.notePteFence _ : Mem).read a = s.mem.read a
  split
  · exact Mem.read_fencePte _ _
  · exact Mem.read_notePteFence _ _ _

/-! ## Every instruction -/

/-- Settles O28: every other instruction, by the shape it has, keeps every byte. -/
theorem onlyStoringInstructionsWriteMemory : Obligations.OnlyStoringInstructionsWriteMemory := by
  unfold Obligations.OnlyStoringInstructionsWriteMemory
  intro i s t hi hc hb hexec
  have key : KeepsBytes s (exec i s) := by
    cases i with
    | lui | auipc | addi | slti | sltiu | xori | ori | andi | slli | srli | srai | add | sub | sll | slt
    | sltu | xor | srl | sra | or | and | addiw | slliw | srliw | sraiw | addw | subw | sllw | srlw | sraw
    | mul | mulh | mulhsu | mulhu | div | divu | rem | remu | mulw | divw | divuw | remw | remuw
    | cAddi4spn | cAddi | cAddiw | cLi | cAddi16sp | cLui | cSrli | cSrai | cAndi | cSub | cXor | cOr | cAnd
    | cSubw | cAddw | cSlli | cMv | cAdd => exact .putX
    | beq | bne | blt | bge | bltu | bgeu => exact .branch hb
    | jal | jalr => exact .jump hb
    | cBeqz | cBnez => exact .cBranch
    | cJ | cJal | cJr | cJalr => exact .cJump
    | lb | lh | lw | lbu | lhu | lwu | ld | cLw | cLd | cLwsp | cLdsp => exact .loadX hc hb
    | lrW | lrD => exact .lrX hc hb
    | csrrw | csrrs | csrrc | csrrwi | csrrsi | csrrci => exact .csr hb
    | ecall | ebreak | cEbreak => exact .commit hb .raise
    | fence => exact .next rfl
    | fenceI =>
      rintro _ ⟨⟩
      exact fun a => s.mem.read_fenceCode a
    | wfi => exact .privileged hb (.of_mem rfl)
    | sfenceVma => exact .privileged hb (s.fenceVma_sameBytes _ _)
    | mret | sret => exact .privileged hb (.of_mem rfl)
    | faddS | fsubS | fmulS | fdivS | fsqrtS | fmaddS | fmsubS | fnmsubS | fnmaddS | fcvtSW | fcvtSWu
    | fcvtSL | fcvtSLu | fcvtSD => exact .fpS hb
    | faddD | fsubD | fmulD | fdivD | fsqrtD | fmaddD | fmsubD | fnmsubD | fnmaddD | fcvtDW | fcvtDWu
    | fcvtDL | fcvtDLu | fcvtDS => exact .fpD hb
    | fsgnjS | fsgnjnS | fsgnjxS | fminS | fmaxS | fmvWX => exact .fpExactS hb
    | fsgnjD | fsgnjnD | fsgnjxD | fminD | fmaxD | fmvDX => exact .fpExactD hb
    | feqS | fltS | fleS | fclassS | feqD | fltD | fleD | fclassD | fmvXW | fmvXD => exact .fpX hb
    | fcvtWS | fcvtWuS | fcvtLS | fcvtLuS | fcvtWD | fcvtWuD | fcvtLD | fcvtLuD => exact .fpToX hb
    | flw | cFlw | cFlwsp => exact .fpLoadS hc hb
    | fld | cFld | cFldsp => exact .fpLoadD hc hb
    | _ => cases hi
  exact key t hexec

end Sys2Proof.Machine
end

section
/-! The page-table walk (R68 to R70): what each scheme makes of an address, and the update of A and D. -/

namespace Sys2Proof.Machine

open Sys2Proof

/-- What the hardware's update of an entry leaves (R70 step 7). -/
theorem State.updateAd_updated (s : State) (acc : Access) (a : Nat) : UpdatedAd s (s.updateAd acc a) acc a where
  bits := by
    have h := s.mem.read_writeAll 1 a (s.mem.read a ||| if acc = .store then 0xC0 else 0x40).toNat 0 Nat.one_pos
    rw [pow_zero, Nat.div_one, BitVec.ofNat_toNat, BitVec.setWidth_eq] at h
    exact h
  others := fun b hb => Mem.read_writeAll_of_not_mem [a] _ _ b (by simpa using hb)
  beside := rfl

/-- Settles O29: the walk from the root goes as the entries it meets say, and a leaf that maps the address by its A and
D bits. -/
theorem pageTableWalks : Obligations.PageTableWalks := by
  unfold Obligations.PageTableWalks
  intro s acc v sch hon root faults
  obtain ⟨hout, hin⟩ := s.translate_pagingOn acc v sch hon
  refine ⟨hout, fun hv => ⟨fun h => ?_, fun h => s.translate_unreadable acc v sch hon hv h, fun j a pte hw => ?_⟩⟩
  · exact (hin hv).trans (s.walk_reachesInvalid (s.walkOf acc v sch) hon.fresh.2 _ _ h false)
  · have hleaf : s.translate acc v = s.leaf (s.walkOf acc v sch) j a pte :=
      (hin hv).trans (s.walk_reachesLeaf (s.walkOf acc v sch) hon.fresh.2 _ _ _ _ _ hw false)
    have hle := ReachesLeaf.level_le hw
    refine ⟨fun hm => hleaf.trans (s.leaf_unmapped acc v sch j a pte hle hm), fun hm => ?_⟩
    rw [s.leaf_maps acc v sch j a pte hle hm] at hleaf
    refine ⟨fun hu => ?_, fun hu => ?_⟩
    · rwa [if_neg fun hn => (needsAdUpdate_iff _ _).1 hn hu] at hleaf
    · rw [if_pos ((needsAdUpdate_iff _ _).2 hu)] at hleaf
      refine ⟨fun hc => ?_, fun hc => ⟨fun hwr => ?_, fun hwr => ⟨?_, adUpdateFault_cases s.tick acc⟩⟩⟩
      · rwa [hc] at hleaf
      · rw [hc] at hleaf
        exact ⟨_, hleaf.trans (if_pos ((pteIn_iff s _ a sch.pteSize).2 hwr)), s.updateAd_updated acc a⟩
      · rw [hc] at hleaf
        exact hleaf.trans (if_neg fun hall => hwr ((pteIn_iff s _ a sch.pteSize).1 hall))

end Sys2Proof.Machine
end

section
/-! The fetch (R66), where it reads memory as it is and where it fails, and the steps that run no
instruction (R392). -/

namespace Sys2Proof.Machine

open Sys2Proof

/-! ## Parcels and words -/

/-- A parcel in executable main memory with nothing stale is read as memory holds it (R66, R79). -/
theorem State.fetchParcel_at (s : State) (v : Word) (p : Nat) (h : ParcelAt s v.toNat p) :
    s.fetchParcel v = .ok (s, BitVec.ofNat 16 (s.bytesAt p 2)) := by
  obtain ⟨hall, hmain⟩ := s.allowed_bytes MemOp.fetch.allowed p 2 h.allowed
  have hphys : s.physical .fetch v 2 = .ok (s, bytesFrom p 2) := State.physical_finds h.found hall
  have hold : s.mem.oldCode (bytesFrom p 2) = [] := by
    refine s.mem.oldCode_of_fresh _ fun before hb c hc hmem => ?_
    obtain ⟨h0, h1⟩ := h.fresh before hb c hc
    rw [mem_bytesFrom] at hmem
    omega
  unfold State.fetchParcel
  rw [hphys]
  dsimp only [Res.bind_ok]
  rw [hmain]
  dsimp only [Res.bind_ok]
  rw [hold, readAll_bytesFrom]
  rfl

/-- A fetch whose parcels are in executable main memory with nothing stale gives the word there, and changes nothing
(R66). -/
theorem State.fetch_at (s : State) (p q : Nat) (h : FetchAt s p q) : s.fetch = .ok (s, s.wordAt p q) := by
  unfold State.fetch State.wordAt
  rw [s.fetchParcel_at s.pc p h.first]
  dsimp only [Res.bind_ok]
  by_cases hl : isLong (BitVec.ofNat 16 (s.bytesAt p 2)) = true
  · rw [if_pos hl, if_pos hl, s.fetchParcel_at _ q (h.second hl)]
    rfl
  · rw [if_neg hl, if_neg hl]

theorem State.fetchParcel_raise {s : State} {v : Word} {e : Exc} {tval : Word}
    (h : s.physical .fetch v 2 = .raise e tval) : s.fetchParcel v = .raise e tval := by
  unfold State.fetchParcel
  rw [h, Res.bind_raise]

/-- A first parcel that fails (R66 step 2). -/
theorem State.fetch_firstFails {s : State} {e : Exc} (h : s.physical .fetch s.pc 2 = .raise e s.pc) :
    s.fetch = .raise e s.pc := by
  unfold State.fetch
  rw [State.fetchParcel_raise h, Res.bind_raise]

/-- A second parcel that fails, with the trap value of R66 step 4. -/
theorem State.fetch_secondFails {s : State} {p : Nat} {e : Exc} {tval : Word} (hp : ParcelAt s s.pc.toNat p)
    (hl : isLong (BitVec.ofNat 16 (s.bytesAt p 2)) = true)
    (h : s.physical .fetch (s.pcPlus 2) 2 = .raise e tval) : s.fetch = .raise e s.secondParcelTval := by
  unfold State.fetch
  rw [s.fetchParcel_at s.pc p hp]
  dsimp only [Res.bind_ok]
  rw [if_pos hl, State.fetchParcel_raise h]
  rfl

theorem State.secondParcelTval_toNat (s : State) : s.secondParcelTval.toNat =
    if s.pc.toNat / 4096 = (s.pcPlus 2).toNat / 4096 then s.pc.toNat else (s.pcPlus 2).toNat := by
  unfold State.secondParcelTval samePage
  rw [apply_ite BitVec.toNat]
  simp only [beq_iff_eq]

/-! ## The trap value of an illegal word (R395) -/

theorem State.illegalTval_bits {s : State} (h : s.cfg.mtvalIllegal = .bits) (w : BitVec 32) :
    (s.illegalTval w).toNat = w.toNat := by
  have hw := w.isLt
  unfold State.illegalTval
  rw [h]
  dsimp only
  rw [BitVec.toNat_setWidth]
  omega

theorem State.illegalTval_zero {s : State} (h : s.cfg.mtvalIllegal = .zero) (w : BitVec 32) :
    (s.illegalTval w).toNat = 0 := by
  unfold State.illegalTval
  rw [h]
  rfl

theorem State.illegalTval_lt (s : State) (w : BitVec 32) : (s.illegalTval w).toNat < s.modulus := by
  cases h : s.cfg.mtvalIllegal with
  | bits =>
    rw [State.illegalTval_bits h]
    refine lt_of_lt_of_le w.isLt ?_
    unfold State.modulus
    cases s.cfg.xlen <;> decide
  | zero =>
    rw [State.illegalTval_zero h]
    exact s.modulus_pos

/-! ## Steps -/

/-- With no interrupt to take, a step runs the word it fetches (R392 steps 4 and 5). -/
theorem step_fetched {s t : State} {w : BitVec 32} (hi : s.beginStep.pendingInterrupt = none)
    (hf : s.beginStep.fetch = .ok (t, w)) : step s = t.runWord w := by
  unfold step State.runNext
  rw [hi, hf]

/-- With no interrupt to take, a fetch that fails is the step's exception (R392 step 7). -/
theorem step_fetchFails {s : State} {e : Exc} {tval : Word} (hi : s.beginStep.pendingInterrupt = none)
    (hf : s.beginStep.fetch = .raise e tval) : step s = .next (s.beginStep.takeException e tval) := by
  unfold step State.runNext
  rw [hi, hf]

theorem State.runWord_illegal {s : State} {w : BitVec 32} (h : ∀ i, decode s.cfg w ≠ .instr i) :
    s.runWord w = .next (s.takeException .illegalInstruction (s.illegalTval w)) := by
  unfold State.runWord
  split
  · next i hi => exact absurd hi (h i)
  · rfl

/-- Settles O5: the word at the pc is read as it is and decodes to nothing, or one of its two parcels fails. -/
theorem stepsWithoutAnInstructionTrap : Obligations.StepsWithoutAnInstructionTrap := by
  unfold Obligations.StepsWithoutAnInstructionTrap
  intro s hi hs u pc pc2 tval2 traps
  have fails {e : Exc} {tval : Word} (hlt : tval.toNat < u.modulus) (hf : u.fetch = .raise e tval) :
      traps e.code tval.toNat :=
    ⟨_, step_fetchFails hi hf, u.takeException_trapped e tval hs hlt⟩
  have hsecond : u.secondParcelTval.toNat = tval2 := u.secondParcelTval_toNat
  have hsecondLt : u.secondParcelTval.toNat < u.modulus := by
    unfold State.secondParcelTval
    split
    · exact hs.sized
    · exact u.pcPlus_lt 2
  refine ⟨fun p q hat hn => ?_, fun h => ?_, fun h => ?_, fun p hp hl => ⟨fun h => ?_, fun h => ?_⟩⟩
  · have hcfg : u.cfg = s.cfg := s.beginStep_cfg
    have hstep := step_fetched hi (u.fetch_at p q hat)
    rw [State.runWord_illegal (by rw [hcfg]; exact hn)] at hstep
    have htrap := u.takeException_trapped .illegalInstruction _ hs (u.illegalTval_lt (u.wordAt p q))
    refine ⟨_, hstep, ?_⟩
    cases hm : s.cfg.mtvalIllegal with
    | bits =>
      rw [State.illegalTval_bits (by rw [hcfg]; exact hm)] at htrap
      exact htrap
    | zero =>
      rw [State.illegalTval_zero (by rw [hcfg]; exact hm)] at htrap
      exact htrap
  · exact fails hs.sized (State.fetch_firstFails (u.physical_forbidden .fetch u.pc 2 h))
  · exact fails hs.sized (State.fetch_firstFails (u.physical_unmapped .fetch u.pc 2 h))
  · exact hsecond ▸ fails hsecondLt (State.fetch_secondFails hp hl (u.physical_forbidden .fetch (u.pcPlus 2) 2 h))
  · exact hsecond ▸ fails hsecondLt (State.fetch_secondFails hp hl (u.physical_unmapped .fetch (u.pcPlus 2) 2 h))

end Sys2Proof.Machine
end

section
/-! The returns from traps (R174, R176, R401), and the fences with what they order (R71, R75, R79, R172 to R177). -/

namespace Sys2Proof.Machine

open Sys2Proof

/-! ## Returns -/

/-- A privileged instruction where the mode may execute it (R163). -/
theorem State.privileged_allowed {s : State} {allowed : Bool} (h : allowed = true) (i : Instr) (t : State) :
    s.privileged i allowed t = .next t := by
  subst h
  rfl

theorem exec_mret {s : State} (h : s.priv = .m) : exec .mret s = .next s.returnFromM.count :=
  State.privileged_allowed (by rw [h]; rfl) _ _

theorem exec_sret {s : State} (h : s.priv = .m ∨ (s.priv = .s ∧ s.mstatus.tsr = false)) :
    exec .sret s = .next s.returnFromS.count := by
  refine State.privileged_allowed ?_ _ _
  rcases h with h | ⟨h, ht⟩
  · rw [h]; rfl
  · rw [h, ht]; rfl

/-- A trap writes the XLEN bits of its trap value (R400). -/
theorem State.takeException_norm (s : State) (e : Exc) (tval : Word) :
    s.takeException e (s.cfg.xlen.norm tval) = s.takeException e tval := by
  unfold State.takeException State.trapEntry
  simp only [State.discardFetch_cfg, Xlen.norm_norm]

/-- `mret` at once after a trap into M-mode gives back what its entry saved (R401). -/
theorem TrappedM.mret_restores {s t : State} {interrupt : Bool} {code tval : Nat}
    (h : TrappedM s t interrupt code tval) :
    ∃ u, exec .mret t = .next u ∧ u.pc = s.pc ∧ u.priv = s.priv ∧ u.mstatus.mie = s.mstatus.mie ∧
      ∀ r, u.ux r = s.ux r :=
  ⟨_, exec_mret h.priv, h.epc, h.mpp, h.mpie, h.ints⟩

/-- `sret` at once after a trap into S-mode from a lower mode or S-mode gives back what its entry saved (R401). -/
theorem TrappedS.sret_restores {s t : State} {interrupt : Bool} {code tval : Nat}
    (h : TrappedS s t interrupt code tval) (hp : s.priv ≠ .m) (htsr : s.mstatus.tsr = false) :
    ∃ u, exec .sret t = .next u ∧ u.pc = s.pc ∧ u.priv = s.priv ∧ u.mstatus.sie = s.mstatus.sie ∧
      ∀ r, u.ux r = s.ux r := by
  have ht : t.mstatus.tsr = s.mstatus.tsr := (congrArg (fun w => w.mstatus.tsr) h.beside :)
  have hpriv : (if t.mstatus.spp then .s else .u) = s.priv := by
    rw [h.spp]
    cases hs : s.priv with
    | m => exact absurd hs hp
    | s | u => rfl
  exact ⟨_, exec_sret (.inr ⟨h.priv, ht.trans htsr⟩), h.epc, hpriv, h.spie, h.ints⟩

/-- Settles O40: what the two returns leave, and that they give back what the trap's entry saved. -/
theorem returnsRestoreTheMode : Obligations.ReturnsRestoreTheMode := by
  unfold Obligations.ReturnsRestoreTheMode
  refine ⟨fun s => ⟨fun h => ?_, fun h => ?_⟩, fun s e tval hs => ?_⟩
  · exact ⟨_, exec_mret h, rfl, rfl, rfl, rfl, rfl, fun _ => rfl, fun _ => rfl, rfl⟩
  · exact ⟨_, exec_sret h, rfl, rfl, rfl, rfl, rfl, fun _ => rfl, fun _ => rfl, rfl⟩
  · have htrap := s.takeException_trapped e (s.cfg.xlen.norm tval) hs (Xlen.norm_lt _ _)
    rw [State.takeException_norm] at htrap
    refine ⟨fun hm => (htrap.2 hm).mret_restores, fun hg htsr => ?_⟩
    have ⟨_, hp, _⟩ := hg
    exact (htrap.1 hg).sret_restores hp htsr

/-! ## Fences that complete -/

/-- An instruction of 4 bytes that only retires. -/
theorem State.retire_goesTo (s : State) : WroteX s (s.retire 4) 0 0 (s.pc.toNat + 4) := by
  have hpc := s.retire_pc_toNat 4 (by decide)
  refine (s.retireAt_goesTo (s.pcPlus (BitVec.ofNat 64 4)) (s.pcPlus_lt _)).congr rfl ?_
  rw [s.wrap_natCast, Nat.mod_eq_of_lt (s.pcPlus_lt _)]
  exact hpc

/-- An instruction of 4 bytes that changes what old values may be seen, and retires. -/
theorem Retired.of_retire {s t : State} (hc : t.cfg = s.cfg) (hp : t.pc = s.pc) (hi : t.minstret = s.minstret) :
    Retired s (t.retire 4) (s.pc.toNat + 4) where
  pc := by
    rw [t.retire_pc_toNat 4 (by decide), State.wrap_of_cfg hc, hp]
    rfl
  counted := by
    rw [← hi]
    rfl

theorem exec_wfi {s : State} (h : s.priv = .m ∨ (s.mstatus.tw = false ∧ ¬ (s.priv = .u ∧ s.cfg.hasS = true))) :
    exec .wfi s = .next (s.retire 4) := by
  refine State.privileged_allowed ?_ _ _
  rcases h with h | ⟨htw, hu⟩
  · rw [h]; rfl
  · rw [htw]
    cases hp : s.priv with
    | m | s => rfl
    | u =>
      have hS : s.cfg.hasS = false := Bool.eq_false_iff.2 fun e => hu ⟨hp, e⟩
      rw [hS]
      rfl

theorem exec_sfenceVma {s : State} (h : s.priv = .m ∨ (s.priv = .s ∧ s.mstatus.tvm = false)) (rs1 rs2 : Reg) :
    exec (.sfenceVma rs1 rs2) s =
      .next ((s.fenceVma (s.fenceOperand rs1) (s.fenceOperand rs2)).retire 4) := by
  refine State.privileged_allowed ?_ _ _
  rcases h with h | ⟨h, ht⟩
  · rw [h]; rfl
  · rw [h, ht]; rfl

/-- A fence changes the record of old translations alone (R71, R175). -/
theorem State.fenceVma_besideOld (s : State) (vaddr asid : Option Word) :
    ((s.fenceVma vaddr asid).retire 4).besideOld = s.besideOld := by
  have hmem : (s.fenceVma vaddr asid).mem.fencePte = s.mem.fencePte := by
    change (if _ then s.mem.fencePte else s.mem.notePteFence _ : Mem).fencePte = _
    split <;> rfl
  change { (s.fenceVma vaddr asid).still with mem := (s.fenceVma vaddr asid).mem.fencePte, staleSatp := [] } = _
  rw [hmem]
  rfl

/-! ## What a fence orders -/

/-- The page a fence names is that of the address, where it names one. -/
theorem State.fenceOperand_page {s : State} {r : Reg} {v : Word} (h : r = 0 ∨ s.ux r / 4096 = v.toNat / 4096) :
    (s.fenceOperand r).all (samePage · v) = true := by
  unfold State.fenceOperand
  split
  · rfl
  · next hr =>
    exact beq_iff_eq.2 (h.resolve_left hr)

/-- The address space a fence names is `asid`, where it names one. -/
theorem State.fenceOperand_asid {s : State} {r : Reg} {asid : Nat}
    (h : r = 0 ∨ s.ux r % 2 ^ s.cfg.asidLen = asid) :
    ((s.fenceOperand r).all fun a => asidOf s.cfg a.toNat == asid) = true := by
  unfold State.fenceOperand
  split
  · rfl
  · next hr =>
    exact beq_iff_eq.2 (h.resolve_left hr)

theorem State.fenceOperand_isSome {s : State} {r : Reg} (h : (s.fenceOperand r).isSome = true) : r ≠ 0 := by
  rintro rfl
  cases h

/-- A fence that names the page and the address space hides an old value, unless it names an address space and the
mapping is global (R71, R175). -/
theorem PartialFence.covers_or_global {c : Config} {vaddr asid : Option Word} {v : Word} {a : Nat} {isGlobal : Bool}
    (hv : vaddr.all (samePage · v) = true) (ha : (asid.all fun w => asidOf c w.toNat == a) = true)
    (h : PartialFence.covers { vaddr := vaddr, asid := asid } c v a isGlobal = false) :
    asid.isSome = true ∧ isGlobal = true := by
  unfold PartialFence.covers at h
  rw [hv, Bool.true_and] at h
  cases asid with
  | none => cases h
  | some w =>
    have ha : (asidOf c w.toNat == a) = true := ha
    change (asidOf c w.toNat == a && !isGlobal) = false at h
    rw [ha, Bool.true_and, Bool.not_eq_false'] at h
    exact ⟨rfl, h⟩

/-- Every store so far is behind the fence: it is forgotten, or has the fence among those since (R71). -/
theorem State.fenceVma_stale {s : State} {vaddr asid : Option Word} {e : StaleStore}
    (h : e ∈ (s.fenceVma vaddr asid).mem.stalePte) : { vaddr := vaddr, asid := asid } ∈ e.fences := by
  change e ∈ (if _ then s.mem.fencePte else s.mem.notePteFence _ : Mem).stalePte at h
  split at h
  · cases h
  · obtain ⟨e', -, rfl⟩ := List.mem_map.1 h
    exact List.mem_cons_self

/-- What a walk reads is memory's value or an old one (R70 step 2, R71). -/
theorem State.pteFor_cases (s : State) (acc : Access) (v : Word) (asid : Nat) (g : Bool) (a n : Nat) :
    s.pteFor acc v asid g a n = s.bytesAt a n ∨
      s.pteFor acc v asid g a n ∈
        s.mem.oldPte (fun fence r => fence.covers s.cfg v asid (g || r.testBit 5)) (bytesFrom a n) := by
  unfold State.pteFor
  dsimp only
  rw [readAll_bytesFrom]
  rw [List.getD_eq_getElem?_getD]
  cases h : (s.mem.oldPte _ (bytesFrom a n))[Config.pteDraw s.tick acc v.toNat a]? with
  | none => exact .inl rfl
  | some r => exact .inr (List.mem_of_getElem? h)

/-- After a fence that names the page and the address space, an old value is read only of a global mapping, where the
fence names an address space (R71, R175). -/
theorem State.oldPte_fenceVma {s : State} {vaddr asid : Option Word} {v : Word} {a : Nat} {g : Bool} {addrs : List Nat}
    {r : Nat} (hv : vaddr.all (samePage · v) = true) (ha : (asid.all fun w => asidOf s.cfg w.toNat == a) = true)
    (h : r ∈ (s.fenceVma vaddr asid).mem.oldPte (fun fence r => fence.covers s.cfg v a (g || r.testBit 5)) addrs) :
    asid.isSome = true ∧ (g = true ∨ r.testBit 5 = true) := by
  obtain ⟨e, he, hhides⟩ := Mem.oldPte_unhidden _ _ _ _ h
  obtain ⟨hsome, hglobal⟩ := PartialFence.covers_or_global hv ha (hhides _ (State.fenceVma_stale he))
  exact ⟨hsome, Bool.or_eq_true_iff.1 hglobal⟩

/-- What a translation takes for `satp` is `satp`, or an old value of it (R71). -/
theorem State.satpFor_cases (s : State) (acc : Access) (v : Word) :
    s.satpFor acc v = s.satp ∨ s.satpFor acc v ∈ s.oldSatp v := by
  unfold State.satpFor
  rw [List.getD_eq_getElem?_getD]
  cases h : (s.oldSatp v)[Config.satpDraw s.tick acc v.toNat]? with
  | none => exact .inl rfl
  | some r => exact .inr (List.mem_of_getElem? h)

/-- One more write of `satp` adds one old value, the one before it (R71, R75). -/
theorem State.oldSatp_writeSatp {s : State} {w v old : Word} (h : old ∈ (s.writeSatp w).oldSatp v) :
    old = s.satp ∨ old ∈ s.oldSatp v := by
  rcases s.writeSatp_cases w with e | ⟨-, e⟩
  · rw [e] at h
    exact .inr h
  · rw [e] at h
    obtain ⟨p, hp, rfl⟩ := List.mem_map.1 h
    obtain ⟨hmem, hkeep⟩ := List.mem_filter.1 hp
    rcases List.mem_cons.1 hmem with rfl | hmem
    · exact .inl rfl
    · by_cases hs : p.old = s.satp
      · exact .inl hs
      · refine .inr (List.mem_map.2 ⟨p, List.mem_filter.2 ⟨hmem, ?_⟩, rfl⟩)
        rw [Bool.and_eq_true] at hkeep ⊢
        exact ⟨bne_iff_ne.2 hs, hkeep.2⟩

/-- Settles O41: the fences and `wfi` retire; and of the stores and the writes of `satp` before an `sfence.vma` that
names the address and the address space, no walk and no translation sees an old value. -/
theorem fencesCompleteAndOrder : Obligations.FencesCompleteAndOrder := by
  unfold Obligations.FencesCompleteAndOrder
  constructor
  · intro s fm pred succ imm rs1 rs2 rd
    refine ⟨⟨_, rfl, s.retire_goesTo⟩, ?_, fun h => ?_, fun h => ⟨_, exec_wfi h, s.retire_goesTo⟩⟩
    · let u : State := { s with mem := s.mem.fenceCode }
      exact ⟨u.retire 4, rfl, .of_retire rfl rfl rfl, fun _ => rfl, fun _ => rfl, rfl, rfl,
        fun addrs => Mem.oldCode_of_fresh _ _ fun _ hb => nomatch hb⟩
    · exact ⟨_, exec_sfenceVma h rs1 rs2, .of_retire rfl rfl rfl, fun _ => rfl, s.fenceVma_sameBytes _ _,
        s.fenceVma_besideOld _ _⟩
  · intro s t rs1 rs2 acc v hp hexec hpage names
    rw [exec_sfenceVma hp] at hexec
    obtain rfl := Host.Outcome.next.inj hexec
    have hv := State.fenceOperand_page hpage
    constructor
    · intro asid g a n hn free
      have hold {r : Nat} (h : r ∈ (s.fenceVma (s.fenceOperand rs1) (s.fenceOperand rs2)).mem.oldPte
          (fun fence r => fence.covers s.cfg v asid (g || r.testBit 5)) (bytesFrom a n)) : free r := by
        obtain ⟨hsome, hglobal⟩ := State.oldPte_fenceVma hv (State.fenceOperand_asid hn) h
        exact ⟨State.fenceOperand_isSome hsome, hglobal⟩
      refine ⟨(State.pteFor_cases _ acc v asid g a n).imp_right hold, fun addrs w => ?_⟩
      intro u r
      rcases u.pteFor_cases acc v asid g a n with h | h
      · exact .inl h
      · rcases Mem.oldPte_writeAll _ _ _ _ _ _ h with h | h
        · exact .inr (.inl (h.trans (readAll_bytesFrom _ a n)))
        · exact .inr (.inr (hold h))
    · intro hn
      have hnone : ¬ ∃ old, old ∈ ((s.fenceVma (s.fenceOperand rs1) (s.fenceOperand rs2)).retire 4).oldSatp v := by
        rintro ⟨old, h⟩
        rw [State.oldSatp_of_covered _ v (s.fenceSatp_covered _ _ v hv (State.fenceOperand_asid hn))] at h
        cases h
      exact ⟨(State.satpFor_cases _ acc v).resolve_right fun h => hnone ⟨_, h⟩, fun w =>
        (State.satpFor_cases _ acc v).imp_right fun h =>
          (State.oldSatp_writeSatp h).resolve_right fun h => hnone ⟨_, h⟩⟩

end Sys2Proof.Machine
end

section
/-! SUPPORT. The formats of a 32-bit word (R87 to R95): `<format>_fields` reads the fields back from a word put
together from them, `<format>_of_fields` puts a word together again from its own fields. -/

namespace Sys2Proof

open BitVec (extractLsb'_append_eq_of_le extractLsb'_append_eq_of_add_le
  extractLsb'_append_extractLsb'_eq_extractLsb' extractLsb'_eq_self)

@[simp] theorem encR_fields (f7 : BitVec 7) (rs2 rs1 : Reg) (f3 : BitVec 3) (rd : Reg) (op : BitVec 7) :
    (encR f7 rs2 rs1 f3 rd op).extractLsb' 0 7 = op ∧ f7F (encR f7 rs2 rs1 f3 rd op) = f7 ∧
    rs2F (encR f7 rs2 rs1 f3 rd op) = rs2 ∧ rs1F (encR f7 rs2 rs1 f3 rd op) = rs1 ∧
    f3F (encR f7 rs2 rs1 f3 rd op) = f3 ∧ rdF (encR f7 rs2 rs1 f3 rd op) = rd := by
  simp (disch := omega) only [encR, f7F, rs2F, rs1F, f3F, rdF, extractLsb'_append_eq_of_le,
    extractLsb'_append_eq_of_add_le, extractLsb'_eq_self, Nat.reduceSub, and_self]

theorem encR_of_fields {f7 : BitVec 7} {rs2 rs1 : Reg} {f3 : BitVec 3} {rd : Reg} {op : BitVec 7}
    {w : BitVec 32} (hop : w.extractLsb' 0 7 = op) (h7 : f7F w = f7) (h2 : rs2F w = rs2) (h1 : rs1F w = rs1)
    (h3 : f3F w = f3) (hd : rdF w = rd) :
    encR f7 rs2 rs1 f3 rd op = w := by
  subst hop h7 h2 h1 h3 hd
  simp (disch := omega) only [encR, f7F, rs2F, rs1F, f3F, rdF, extractLsb'_append_extractLsb'_eq_extractLsb',
    extractLsb'_eq_self]

@[simp] theorem encI_fields (imm : BitVec 12) (rs1 : Reg) (f3 : BitVec 3) (rd : Reg) (op : BitVec 7) :
    (encI imm rs1 f3 rd op).extractLsb' 0 7 = op ∧ immI (encI imm rs1 f3 rd op) = imm ∧
    rs1F (encI imm rs1 f3 rd op) = rs1 ∧ f3F (encI imm rs1 f3 rd op) = f3 ∧ rdF (encI imm rs1 f3 rd op) = rd := by
  simp (disch := omega) only [encI, immI, rs1F, f3F, rdF, extractLsb'_append_eq_of_le,
    extractLsb'_append_eq_of_add_le, extractLsb'_eq_self, Nat.reduceSub, and_self]

theorem encI_of_fields {imm : BitVec 12} {rs1 : Reg} {f3 : BitVec 3} {rd : Reg} {op : BitVec 7} {w : BitVec 32}
    (hop : w.extractLsb' 0 7 = op) (hi : immI w = imm) (h1 : rs1F w = rs1) (h3 : f3F w = f3) (hd : rdF w = rd) :
    encI imm rs1 f3 rd op = w := by
  subst hop hi h1 h3 hd
  simp (disch := omega) only [encI, immI, rs1F, f3F, rdF, extractLsb'_append_extractLsb'_eq_extractLsb',
    extractLsb'_eq_self]

@[simp] theorem encS_fields (imm : BitVec 12) (rs2 rs1 : Reg) (f3 : BitVec 3) (op : BitVec 7) :
    (encS imm rs2 rs1 f3 op).extractLsb' 0 7 = op ∧ immS (encS imm rs2 rs1 f3 op) = imm ∧
    rs2F (encS imm rs2 rs1 f3 op) = rs2 ∧ rs1F (encS imm rs2 rs1 f3 op) = rs1 ∧
    f3F (encS imm rs2 rs1 f3 op) = f3 := by
  simp (disch := omega) only [encS, immS, rs2F, rs1F, f3F, extractLsb'_append_eq_of_le,
    extractLsb'_append_eq_of_add_le, extractLsb'_append_extractLsb'_eq_extractLsb', extractLsb'_eq_self,
    Nat.reduceSub, and_self]

theorem encS_of_fields {imm : BitVec 12} {rs2 rs1 : Reg} {f3 : BitVec 3} {op : BitVec 7} {w : BitVec 32}
    (hop : w.extractLsb' 0 7 = op) (hi : immS w = imm) (h2 : rs2F w = rs2) (h1 : rs1F w = rs1) (h3 : f3F w = f3) :
    encS imm rs2 rs1 f3 op = w := by
  subst hop hi h2 h1 h3
  simp (disch := omega) only [encS, immS, rs2F, rs1F, f3F, extractLsb'_append_eq_of_le,
    extractLsb'_append_eq_of_add_le, extractLsb'_append_extractLsb'_eq_extractLsb', extractLsb'_eq_self,
    Nat.reduceSub]

@[simp] theorem encB_fields (imm : BitVec 12) (rs2 rs1 : Reg) (f3 : BitVec 3) (op : BitVec 7) :
    (encB imm rs2 rs1 f3 op).extractLsb' 0 7 = op ∧ immB (encB imm rs2 rs1 f3 op) = imm ∧
    rs2F (encB imm rs2 rs1 f3 op) = rs2 ∧ rs1F (encB imm rs2 rs1 f3 op) = rs1 ∧
    f3F (encB imm rs2 rs1 f3 op) = f3 := by
  simp (disch := omega) only [encB, immB, rs2F, rs1F, f3F, extractLsb'_append_eq_of_le,
    extractLsb'_append_eq_of_add_le, extractLsb'_append_extractLsb'_eq_extractLsb', extractLsb'_eq_self,
    Nat.reduceSub, and_self]

theorem encB_of_fields {imm : BitVec 12} {rs2 rs1 : Reg} {f3 : BitVec 3} {op : BitVec 7} {w : BitVec 32}
    (hop : w.extractLsb' 0 7 = op) (hi : immB w = imm) (h2 : rs2F w = rs2) (h1 : rs1F w = rs1) (h3 : f3F w = f3) :
    encB imm rs2 rs1 f3 op = w := by
  subst hop hi h2 h1 h3
  simp (disch := omega) only [encB, immB, rs2F, rs1F, f3F, extractLsb'_append_eq_of_le,
    extractLsb'_append_eq_of_add_le, extractLsb'_append_extractLsb'_eq_extractLsb', extractLsb'_eq_self,
    Nat.reduceSub]

@[simp] theorem encU_fields (imm : BitVec 20) (rd : Reg) (op : BitVec 7) :
    (encU imm rd op).extractLsb' 0 7 = op ∧ immU (encU imm rd op) = imm ∧ rdF (encU imm rd op) = rd := by
  simp (disch := omega) only [encU, immU, rdF, extractLsb'_append_eq_of_le, extractLsb'_append_eq_of_add_le,
    extractLsb'_eq_self, Nat.reduceSub, and_self]

theorem encU_of_fields {imm : BitVec 20} {rd : Reg} {op : BitVec 7} {w : BitVec 32}
    (hop : w.extractLsb' 0 7 = op) (hi : immU w = imm) (hd : rdF w = rd) :
    encU imm rd op = w := by
  subst hop hi hd
  simp (disch := omega) only [encU, immU, rdF, extractLsb'_append_extractLsb'_eq_extractLsb',
    extractLsb'_eq_self]

@[simp] theorem encJ_fields (imm : BitVec 20) (rd : Reg) (op : BitVec 7) :
    (encJ imm rd op).extractLsb' 0 7 = op ∧ immJ (encJ imm rd op) = imm ∧ rdF (encJ imm rd op) = rd := by
  simp (disch := omega) only [encJ, immJ, rdF, extractLsb'_append_eq_of_le, extractLsb'_append_eq_of_add_le,
    extractLsb'_append_extractLsb'_eq_extractLsb', extractLsb'_eq_self, Nat.reduceSub, and_self]

theorem encJ_of_fields {imm : BitVec 20} {rd : Reg} {op : BitVec 7} {w : BitVec 32}
    (hop : w.extractLsb' 0 7 = op) (hi : immJ w = imm) (hd : rdF w = rd) :
    encJ imm rd op = w := by
  subst hop hi hd
  simp (disch := omega) only [encJ, immJ, rdF, extractLsb'_append_eq_of_le, extractLsb'_append_eq_of_add_le,
    extractLsb'_append_extractLsb'_eq_extractLsb', extractLsb'_eq_self, Nat.reduceSub]

@[simp] theorem encR4_fields (rs3 : Reg) (fmt : BitVec 2) (rs2 rs1 : Reg) (rm : BitVec 3) (rd : Reg)
    (op : BitVec 7) :
    (encR4 rs3 fmt rs2 rs1 rm rd op).extractLsb' 0 7 = op ∧ rs3F (encR4 rs3 fmt rs2 rs1 rm rd op) = rs3 ∧
    fmtF (encR4 rs3 fmt rs2 rs1 rm rd op) = fmt ∧ rs2F (encR4 rs3 fmt rs2 rs1 rm rd op) = rs2 ∧
    rs1F (encR4 rs3 fmt rs2 rs1 rm rd op) = rs1 ∧ f3F (encR4 rs3 fmt rs2 rs1 rm rd op) = rm ∧
    rdF (encR4 rs3 fmt rs2 rs1 rm rd op) = rd := by
  simp (disch := omega) only [encR4, rs3F, fmtF, rs2F, rs1F, f3F, rdF, extractLsb'_append_eq_of_le,
    extractLsb'_append_eq_of_add_le, extractLsb'_eq_self, Nat.reduceSub, and_self]

theorem encR4_of_fields {rs3 : Reg} {fmt : BitVec 2} {rs2 rs1 : Reg} {rm : BitVec 3} {rd : Reg} {op : BitVec 7}
    {w : BitVec 32} (hop : w.extractLsb' 0 7 = op) (hr3 : rs3F w = rs3) (hf : fmtF w = fmt) (h2 : rs2F w = rs2)
    (h1 : rs1F w = rs1) (h3 : f3F w = rm) (hd : rdF w = rd) :
    encR4 rs3 fmt rs2 rs1 rm rd op = w := by
  subst hop hr3 hf h2 h1 h3 hd
  simp (disch := omega) only [encR4, rs3F, fmtF, rs2F, rs1F, f3F, rdF,
    extractLsb'_append_extractLsb'_eq_extractLsb', extractLsb'_eq_self]

@[simp] theorem encShift_fields (f6 shamt : BitVec 6) (rs1 : Reg) (f3 : BitVec 3) (rd : Reg) (op : BitVec 7) :
    (encShift f6 shamt rs1 f3 rd op).extractLsb' 0 7 = op ∧ f6F (encShift f6 shamt rs1 f3 rd op) = f6 ∧
    shamtF (encShift f6 shamt rs1 f3 rd op) = shamt ∧ rs1F (encShift f6 shamt rs1 f3 rd op) = rs1 ∧
    f3F (encShift f6 shamt rs1 f3 rd op) = f3 ∧ rdF (encShift f6 shamt rs1 f3 rd op) = rd := by
  simp (disch := omega) only [encShift, f6F, shamtF, rs1F, f3F, rdF, extractLsb'_append_eq_of_le,
    extractLsb'_append_eq_of_add_le, extractLsb'_eq_self, Nat.reduceSub, and_self]

theorem encShift_of_fields {f6 shamt : BitVec 6} {rs1 : Reg} {f3 : BitVec 3} {rd : Reg} {op : BitVec 7}
    {w : BitVec 32} (hop : w.extractLsb' 0 7 = op) (h6 : f6F w = f6) (hs : shamtF w = shamt) (h1 : rs1F w = rs1)
    (h3 : f3F w = f3) (hd : rdF w = rd) :
    encShift f6 shamt rs1 f3 rd op = w := by
  subst hop h6 hs h1 h3 hd
  simp (disch := omega) only [encShift, f6F, shamtF, rs1F, f3F, rdF,
    extractLsb'_append_extractLsb'_eq_extractLsb', extractLsb'_eq_self]

@[simp] theorem encAmo_fields (f5 : BitVec 5) (aq rl : BitVec 1) (rs2 rs1 : Reg) (f3 : BitVec 3) (rd : Reg)
    (op : BitVec 7) :
    (encAmo f5 aq rl rs2 rs1 f3 rd op).extractLsb' 0 7 = op ∧ f5F (encAmo f5 aq rl rs2 rs1 f3 rd op) = f5 ∧
    aqF (encAmo f5 aq rl rs2 rs1 f3 rd op) = aq ∧ rlF (encAmo f5 aq rl rs2 rs1 f3 rd op) = rl ∧
    rs2F (encAmo f5 aq rl rs2 rs1 f3 rd op) = rs2 ∧ rs1F (encAmo f5 aq rl rs2 rs1 f3 rd op) = rs1 ∧
    f3F (encAmo f5 aq rl rs2 rs1 f3 rd op) = f3 ∧ rdF (encAmo f5 aq rl rs2 rs1 f3 rd op) = rd := by
  simp (disch := omega) only [encAmo, f5F, aqF, rlF, rs2F, rs1F, f3F, rdF, extractLsb'_append_eq_of_le,
    extractLsb'_append_eq_of_add_le, extractLsb'_eq_self, Nat.reduceSub, and_self]

theorem encAmo_of_fields {f5 : BitVec 5} {aq rl : BitVec 1} {rs2 rs1 : Reg} {f3 : BitVec 3} {rd : Reg}
    {op : BitVec 7} {w : BitVec 32} (hop : w.extractLsb' 0 7 = op) (h5 : f5F w = f5) (ha : aqF w = aq)
    (hl : rlF w = rl) (h2 : rs2F w = rs2) (h1 : rs1F w = rs1) (h3 : f3F w = f3) (hd : rdF w = rd) :
    encAmo f5 aq rl rs2 rs1 f3 rd op = w := by
  subst hop h5 ha hl h2 h1 h3 hd
  simp (disch := omega) only [encAmo, f5F, aqF, rlF, rs2F, rs1F, f3F, rdF,
    extractLsb'_append_extractLsb'_eq_extractLsb', extractLsb'_eq_self]

@[simp] theorem encFence_fields (fm pred succ : BitVec 4) (rs1 : Reg) (f3 : BitVec 3) (rd : Reg) (op : BitVec 7) :
    (encFence fm pred succ rs1 f3 rd op).extractLsb' 0 7 = op ∧ fmF (encFence fm pred succ rs1 f3 rd op) = fm ∧
    predF (encFence fm pred succ rs1 f3 rd op) = pred ∧ succF (encFence fm pred succ rs1 f3 rd op) = succ ∧
    rs1F (encFence fm pred succ rs1 f3 rd op) = rs1 ∧ f3F (encFence fm pred succ rs1 f3 rd op) = f3 ∧
    rdF (encFence fm pred succ rs1 f3 rd op) = rd := by
  simp (disch := omega) only [encFence, fmF, predF, succF, rs1F, f3F, rdF, extractLsb'_append_eq_of_le,
    extractLsb'_append_eq_of_add_le, extractLsb'_eq_self, Nat.reduceSub, and_self]

theorem encFence_of_fields {fm pred succ : BitVec 4} {rs1 : Reg} {f3 : BitVec 3} {rd : Reg} {op : BitVec 7}
    {w : BitVec 32} (hop : w.extractLsb' 0 7 = op) (hm : fmF w = fm) (hp : predF w = pred) (hs : succF w = succ)
    (h1 : rs1F w = rs1) (h3 : f3F w = f3) (hd : rdF w = rd) :
    encFence fm pred succ rs1 f3 rd op = w := by
  subst hop hm hp hs h1 h3 hd
  simp (disch := omega) only [encFence, fmF, predF, succF, rs1F, f3F, rdF,
    extractLsb'_append_extractLsb'_eq_extractLsb', extractLsb'_eq_self]

/-- A word with another `funct7` is not this one. -/
theorem encR_ne_of_f7F {f7 : BitVec 7} {rs2 rs1 : Reg} {f3 : BitVec 3} {rd : Reg} {op : BitVec 7} {v : BitVec 32}
    (h : f7F v ≠ f7) : encR f7 rs2 rs1 f3 rd op ≠ v := by
  rintro rfl
  exact h (encR_fields ..).2.1

end Sys2Proof
end

section
/-! SUPPORT. The formats of a parcel (R98, R99), in the same two directions. -/

namespace Sys2Proof

open BitVec (extractLsb'_append_eq_of_le extractLsb'_append_eq_of_add_le
  extractLsb'_append_extractLsb'_eq_extractLsb' extractLsb'_eq_self)

@[simp] theorem encCIW_fields (f3 : BitVec 3) (imm : BitVec 8) (rd : CReg) (op : BitVec 2) :
    (encCIW f3 imm rd op).extractLsb' 0 2 = op ∧ (encCIW f3 imm rd op).extractLsb' 13 3 = f3 ∧
    immCIW (encCIW f3 imm rd op) = imm ∧ crs2pF (encCIW f3 imm rd op) = rd := by
  simp (disch := omega) only [encCIW, immCIW, crs2pF, extractLsb'_append_eq_of_le,
    extractLsb'_append_eq_of_add_le, extractLsb'_append_extractLsb'_eq_extractLsb', extractLsb'_eq_self,
    Nat.reduceSub, and_self]

theorem encCIW_of_fields {f3 : BitVec 3} {imm : BitVec 8} {rd : CReg} {op : BitVec 2} {w : BitVec 16}
    (hop : w.extractLsb' 0 2 = op) (h3 : w.extractLsb' 13 3 = f3) (hi : immCIW w = imm) (h2 : crs2pF w = rd) :
    encCIW f3 imm rd op = w := by
  subst hop h3 hi h2
  simp (disch := omega) only [encCIW, immCIW, crs2pF, extractLsb'_append_eq_of_le,
    extractLsb'_append_eq_of_add_le, extractLsb'_append_extractLsb'_eq_extractLsb', extractLsb'_eq_self,
    Nat.reduceSub]

@[simp] theorem encCL4_fields (f3 : BitVec 3) (imm : BitVec 5) (rs1 rd : CReg) (op : BitVec 2) :
    (encCL4 f3 imm rs1 rd op).extractLsb' 0 2 = op ∧ (encCL4 f3 imm rs1 rd op).extractLsb' 13 3 = f3 ∧
    immCL4 (encCL4 f3 imm rs1 rd op) = imm ∧ crs1pF (encCL4 f3 imm rs1 rd op) = rs1 ∧
    crs2pF (encCL4 f3 imm rs1 rd op) = rd := by
  simp (disch := omega) only [encCL4, immCL4, crs1pF, crs2pF, extractLsb'_append_eq_of_le,
    extractLsb'_append_eq_of_add_le, extractLsb'_append_extractLsb'_eq_extractLsb', extractLsb'_eq_self,
    Nat.reduceSub, and_self]

theorem encCL4_of_fields {f3 : BitVec 3} {imm : BitVec 5} {rs1 rd : CReg} {op : BitVec 2} {w : BitVec 16}
    (hop : w.extractLsb' 0 2 = op) (h3 : w.extractLsb' 13 3 = f3) (hi : immCL4 w = imm) (h1 : crs1pF w = rs1)
    (h2 : crs2pF w = rd) :
    encCL4 f3 imm rs1 rd op = w := by
  subst hop h3 hi h1 h2
  simp (disch := omega) only [encCL4, immCL4, crs1pF, crs2pF, extractLsb'_append_eq_of_le,
    extractLsb'_append_eq_of_add_le, extractLsb'_append_extractLsb'_eq_extractLsb', extractLsb'_eq_self,
    Nat.reduceSub]

@[simp] theorem encCL8_fields (f3 : BitVec 3) (imm : BitVec 5) (rs1 rd : CReg) (op : BitVec 2) :
    (encCL8 f3 imm rs1 rd op).extractLsb' 0 2 = op ∧ (encCL8 f3 imm rs1 rd op).extractLsb' 13 3 = f3 ∧
    immCL8 (encCL8 f3 imm rs1 rd op) = imm ∧ crs1pF (encCL8 f3 imm rs1 rd op) = rs1 ∧
    crs2pF (encCL8 f3 imm rs1 rd op) = rd := by
  simp (disch := omega) only [encCL8, immCL8, crs1pF, crs2pF, extractLsb'_append_eq_of_le,
    extractLsb'_append_eq_of_add_le, extractLsb'_append_extractLsb'_eq_extractLsb', extractLsb'_eq_self,
    Nat.reduceSub, and_self]

theorem encCL8_of_fields {f3 : BitVec 3} {imm : BitVec 5} {rs1 rd : CReg} {op : BitVec 2} {w : BitVec 16}
    (hop : w.extractLsb' 0 2 = op) (h3 : w.extractLsb' 13 3 = f3) (hi : immCL8 w = imm) (h1 : crs1pF w = rs1)
    (h2 : crs2pF w = rd) :
    encCL8 f3 imm rs1 rd op = w := by
  subst hop h3 hi h1 h2
  simp (disch := omega) only [encCL8, immCL8, crs1pF, crs2pF, extractLsb'_append_eq_of_le,
    extractLsb'_append_eq_of_add_le, extractLsb'_append_extractLsb'_eq_extractLsb', extractLsb'_eq_self,
    Nat.reduceSub]

@[simp] theorem encCI_fields (f3 : BitVec 3) (imm : BitVec 6) (rd : Reg) (op : BitVec 2) :
    (encCI f3 imm rd op).extractLsb' 0 2 = op ∧ (encCI f3 imm rd op).extractLsb' 13 3 = f3 ∧
    immCI (encCI f3 imm rd op) = imm ∧ crdF (encCI f3 imm rd op) = rd := by
  simp (disch := omega) only [encCI, immCI, crdF, extractLsb'_append_eq_of_le, extractLsb'_append_eq_of_add_le,
    extractLsb'_append_extractLsb'_eq_extractLsb', extractLsb'_eq_self, Nat.reduceSub, and_self]

theorem encCI_of_fields {f3 : BitVec 3} {imm : BitVec 6} {rd : Reg} {op : BitVec 2} {w : BitVec 16}
    (hop : w.extractLsb' 0 2 = op) (h3 : w.extractLsb' 13 3 = f3) (hi : immCI w = imm) (hd : crdF w = rd) :
    encCI f3 imm rd op = w := by
  subst hop h3 hi hd
  simp (disch := omega) only [encCI, immCI, crdF, extractLsb'_append_eq_of_le, extractLsb'_append_eq_of_add_le,
    extractLsb'_append_extractLsb'_eq_extractLsb', extractLsb'_eq_self, Nat.reduceSub]

@[simp] theorem encCI16_fields (f3 : BitVec 3) (imm : BitVec 6) (op : BitVec 2) :
    (encCI16 f3 imm op).extractLsb' 0 2 = op ∧ (encCI16 f3 imm op).extractLsb' 13 3 = f3 ∧
    immCI16 (encCI16 f3 imm op) = imm ∧ crdF (encCI16 f3 imm op) = 2#5 := by
  simp (disch := omega) only [encCI16, immCI16, crdF, extractLsb'_append_eq_of_le,
    extractLsb'_append_eq_of_add_le, extractLsb'_append_extractLsb'_eq_extractLsb', extractLsb'_eq_self,
    Nat.reduceSub, and_self]

theorem encCI16_of_fields {f3 : BitVec 3} {imm : BitVec 6} {op : BitVec 2} {w : BitVec 16}
    (hop : w.extractLsb' 0 2 = op) (h3 : w.extractLsb' 13 3 = f3) (hi : immCI16 w = imm) (hd : crdF w = 2#5) :
    encCI16 f3 imm op = w := by
  subst hop h3 hi
  simp (disch := omega) only [encCI16, ← hd, immCI16, crdF, extractLsb'_append_eq_of_le,
    extractLsb'_append_eq_of_add_le, extractLsb'_append_extractLsb'_eq_extractLsb', extractLsb'_eq_self,
    Nat.reduceSub]

@[simp] theorem encCJ_fields (f3 : BitVec 3) (imm : BitVec 11) (op : BitVec 2) :
    (encCJ f3 imm op).extractLsb' 0 2 = op ∧ (encCJ f3 imm op).extractLsb' 13 3 = f3 ∧
    immCJ (encCJ f3 imm op) = imm := by
  simp (disch := omega) only [encCJ, immCJ, extractLsb'_append_eq_of_le, extractLsb'_append_eq_of_add_le,
    extractLsb'_append_extractLsb'_eq_extractLsb', extractLsb'_eq_self, Nat.reduceSub, and_self]

theorem encCJ_of_fields {f3 : BitVec 3} {imm : BitVec 11} {op : BitVec 2} {w : BitVec 16}
    (hop : w.extractLsb' 0 2 = op) (h3 : w.extractLsb' 13 3 = f3) (hi : immCJ w = imm) :
    encCJ f3 imm op = w := by
  subst hop h3 hi
  simp (disch := omega) only [encCJ, immCJ, extractLsb'_append_eq_of_le, extractLsb'_append_eq_of_add_le,
    extractLsb'_append_extractLsb'_eq_extractLsb', extractLsb'_eq_self, Nat.reduceSub]

@[simp] theorem encCB_fields (f3 : BitVec 3) (imm : BitVec 8) (rs1 : CReg) (op : BitVec 2) :
    (encCB f3 imm rs1 op).extractLsb' 0 2 = op ∧ (encCB f3 imm rs1 op).extractLsb' 13 3 = f3 ∧
    immCB (encCB f3 imm rs1 op) = imm ∧ crs1pF (encCB f3 imm rs1 op) = rs1 := by
  simp (disch := omega) only [encCB, immCB, crs1pF, extractLsb'_append_eq_of_le,
    extractLsb'_append_eq_of_add_le, extractLsb'_append_extractLsb'_eq_extractLsb', extractLsb'_eq_self,
    Nat.reduceSub, and_self]

theorem encCB_of_fields {f3 : BitVec 3} {imm : BitVec 8} {rs1 : CReg} {op : BitVec 2} {w : BitVec 16}
    (hop : w.extractLsb' 0 2 = op) (h3 : w.extractLsb' 13 3 = f3) (hi : immCB w = imm) (h1 : crs1pF w = rs1) :
    encCB f3 imm rs1 op = w := by
  subst hop h3 hi h1
  simp (disch := omega) only [encCB, immCB, crs1pF, extractLsb'_append_eq_of_le,
    extractLsb'_append_eq_of_add_le, extractLsb'_append_extractLsb'_eq_extractLsb', extractLsb'_eq_self,
    Nat.reduceSub]

@[simp] theorem encCBI_fields (f3 : BitVec 3) (imm : BitVec 6) (f2 : BitVec 2) (rd : CReg) (op : BitVec 2) :
    (encCBI f3 imm f2 rd op).extractLsb' 0 2 = op ∧ (encCBI f3 imm f2 rd op).extractLsb' 13 3 = f3 ∧
    immCI (encCBI f3 imm f2 rd op) = imm ∧ (encCBI f3 imm f2 rd op).extractLsb' 10 2 = f2 ∧
    crs1pF (encCBI f3 imm f2 rd op) = rd := by
  simp (disch := omega) only [encCBI, immCI, crs1pF, extractLsb'_append_eq_of_le,
    extractLsb'_append_eq_of_add_le, extractLsb'_append_extractLsb'_eq_extractLsb', extractLsb'_eq_self,
    Nat.reduceSub, and_self]

theorem encCBI_of_fields {f3 : BitVec 3} {imm : BitVec 6} {f2 : BitVec 2} {rd : CReg} {op : BitVec 2}
    {w : BitVec 16} (hop : w.extractLsb' 0 2 = op) (h3 : w.extractLsb' 13 3 = f3) (hi : immCI w = imm)
    (hf : w.extractLsb' 10 2 = f2) (h1 : crs1pF w = rd) :
    encCBI f3 imm f2 rd op = w := by
  subst hop h3 hi hf h1
  simp (disch := omega) only [encCBI, immCI, crs1pF, extractLsb'_append_eq_of_le,
    extractLsb'_append_eq_of_add_le, extractLsb'_append_extractLsb'_eq_extractLsb', extractLsb'_eq_self,
    Nat.reduceSub]

@[simp] theorem encCA_fields (f6 : BitVec 6) (rd : CReg) (f2 : BitVec 2) (rs2 : CReg) (op : BitVec 2) :
    (encCA f6 rd f2 rs2 op).extractLsb' 0 2 = op ∧
    (encCA f6 rd f2 rs2 op).extractLsb' 13 3 = f6.extractLsb' 3 3 ∧
    (encCA f6 rd f2 rs2 op).extractLsb' 12 1 = f6.extractLsb' 2 1 ∧
    (encCA f6 rd f2 rs2 op).extractLsb' 10 2 = f6.extractLsb' 0 2 ∧ crs1pF (encCA f6 rd f2 rs2 op) = rd ∧
    (encCA f6 rd f2 rs2 op).extractLsb' 5 2 = f2 ∧ crs2pF (encCA f6 rd f2 rs2 op) = rs2 := by
  simp (disch := omega) only [encCA, crs1pF, crs2pF, extractLsb'_append_eq_of_le,
    extractLsb'_append_eq_of_add_le, extractLsb'_eq_self, Nat.reduceSub, and_self]

theorem encCA_of_fields {f6 : BitVec 6} {rd : CReg} {f2 : BitVec 2} {rs2 : CReg} {op : BitVec 2} {w : BitVec 16}
    (hop : w.extractLsb' 0 2 = op) (h6 : w.extractLsb' 10 6 = f6) (h1 : crs1pF w = rd)
    (hf : w.extractLsb' 5 2 = f2) (h2 : crs2pF w = rs2) :
    encCA f6 rd f2 rs2 op = w := by
  subst hop h6 h1 hf h2
  simp (disch := omega) only [encCA, crs1pF, crs2pF, extractLsb'_append_extractLsb'_eq_extractLsb',
    extractLsb'_eq_self]

@[simp] theorem encCI4_fields (f3 : BitVec 3) (imm : BitVec 6) (rd : Reg) (op : BitVec 2) :
    (encCI4 f3 imm rd op).extractLsb' 0 2 = op ∧ (encCI4 f3 imm rd op).extractLsb' 13 3 = f3 ∧
    immCI4 (encCI4 f3 imm rd op) = imm ∧ crdF (encCI4 f3 imm rd op) = rd := by
  simp (disch := omega) only [encCI4, immCI4, crdF, extractLsb'_append_eq_of_le,
    extractLsb'_append_eq_of_add_le, extractLsb'_append_extractLsb'_eq_extractLsb', extractLsb'_eq_self,
    Nat.reduceSub, and_self]

theorem encCI4_of_fields {f3 : BitVec 3} {imm : BitVec 6} {rd : Reg} {op : BitVec 2} {w : BitVec 16}
    (hop : w.extractLsb' 0 2 = op) (h3 : w.extractLsb' 13 3 = f3) (hi : immCI4 w = imm) (hd : crdF w = rd) :
    encCI4 f3 imm rd op = w := by
  subst hop h3 hi hd
  simp (disch := omega) only [encCI4, immCI4, crdF, extractLsb'_append_eq_of_le,
    extractLsb'_append_eq_of_add_le, extractLsb'_append_extractLsb'_eq_extractLsb', extractLsb'_eq_self,
    Nat.reduceSub]

@[simp] theorem encCI8_fields (f3 : BitVec 3) (imm : BitVec 6) (rd : Reg) (op : BitVec 2) :
    (encCI8 f3 imm rd op).extractLsb' 0 2 = op ∧ (encCI8 f3 imm rd op).extractLsb' 13 3 = f3 ∧
    immCI8 (encCI8 f3 imm rd op) = imm ∧ crdF (encCI8 f3 imm rd op) = rd := by
  simp (disch := omega) only [encCI8, immCI8, crdF, extractLsb'_append_eq_of_le,
    extractLsb'_append_eq_of_add_le, extractLsb'_append_extractLsb'_eq_extractLsb', extractLsb'_eq_self,
    Nat.reduceSub, and_self]

theorem encCI8_of_fields {f3 : BitVec 3} {imm : BitVec 6} {rd : Reg} {op : BitVec 2} {w : BitVec 16}
    (hop : w.extractLsb' 0 2 = op) (h3 : w.extractLsb' 13 3 = f3) (hi : immCI8 w = imm) (hd : crdF w = rd) :
    encCI8 f3 imm rd op = w := by
  subst hop h3 hi hd
  simp (disch := omega) only [encCI8, immCI8, crdF, extractLsb'_append_eq_of_le,
    extractLsb'_append_eq_of_add_le, extractLsb'_append_extractLsb'_eq_extractLsb', extractLsb'_eq_self,
    Nat.reduceSub]

@[simp] theorem encCSS4_fields (f3 : BitVec 3) (imm : BitVec 6) (rs2 : Reg) (op : BitVec 2) :
    (encCSS4 f3 imm rs2 op).extractLsb' 0 2 = op ∧ (encCSS4 f3 imm rs2 op).extractLsb' 13 3 = f3 ∧
    immCSS4 (encCSS4 f3 imm rs2 op) = imm ∧ crs2F (encCSS4 f3 imm rs2 op) = rs2 := by
  simp (disch := omega) only [encCSS4, immCSS4, crs2F, extractLsb'_append_eq_of_le,
    extractLsb'_append_eq_of_add_le, extractLsb'_append_extractLsb'_eq_extractLsb', extractLsb'_eq_self,
    Nat.reduceSub, and_self]

theorem encCSS4_of_fields {f3 : BitVec 3} {imm : BitVec 6} {rs2 : Reg} {op : BitVec 2} {w : BitVec 16}
    (hop : w.extractLsb' 0 2 = op) (h3 : w.extractLsb' 13 3 = f3) (hi : immCSS4 w = imm) (h2 : crs2F w = rs2) :
    encCSS4 f3 imm rs2 op = w := by
  subst hop h3 hi h2
  simp (disch := omega) only [encCSS4, immCSS4, crs2F, extractLsb'_append_eq_of_le,
    extractLsb'_append_eq_of_add_le, extractLsb'_append_extractLsb'_eq_extractLsb', extractLsb'_eq_self,
    Nat.reduceSub]

@[simp] theorem encCSS8_fields (f3 : BitVec 3) (imm : BitVec 6) (rs2 : Reg) (op : BitVec 2) :
    (encCSS8 f3 imm rs2 op).extractLsb' 0 2 = op ∧ (encCSS8 f3 imm rs2 op).extractLsb' 13 3 = f3 ∧
    immCSS8 (encCSS8 f3 imm rs2 op) = imm ∧ crs2F (encCSS8 f3 imm rs2 op) = rs2 := by
  simp (disch := omega) only [encCSS8, immCSS8, crs2F, extractLsb'_append_eq_of_le,
    extractLsb'_append_eq_of_add_le, extractLsb'_append_extractLsb'_eq_extractLsb', extractLsb'_eq_self,
    Nat.reduceSub, and_self]

theorem encCSS8_of_fields {f3 : BitVec 3} {imm : BitVec 6} {rs2 : Reg} {op : BitVec 2} {w : BitVec 16}
    (hop : w.extractLsb' 0 2 = op) (h3 : w.extractLsb' 13 3 = f3) (hi : immCSS8 w = imm) (h2 : crs2F w = rs2) :
    encCSS8 f3 imm rs2 op = w := by
  subst hop h3 hi h2
  simp (disch := omega) only [encCSS8, immCSS8, crs2F, extractLsb'_append_eq_of_le,
    extractLsb'_append_eq_of_add_le, extractLsb'_append_extractLsb'_eq_extractLsb', extractLsb'_eq_self,
    Nat.reduceSub]

@[simp] theorem encCR_fields (f4 : BitVec 4) (r1 r2 : Reg) (op : BitVec 2) :
    (encCR f4 r1 r2 op).extractLsb' 0 2 = op ∧ (encCR f4 r1 r2 op).extractLsb' 13 3 = f4.extractLsb' 1 3 ∧
    (encCR f4 r1 r2 op).extractLsb' 12 1 = f4.extractLsb' 0 1 ∧ crdF (encCR f4 r1 r2 op) = r1 ∧
    crs2F (encCR f4 r1 r2 op) = r2 := by
  simp (disch := omega) only [encCR, crdF, crs2F, extractLsb'_append_eq_of_le, extractLsb'_append_eq_of_add_le,
    extractLsb'_eq_self, Nat.reduceSub, and_self]

theorem encCR_of_fields {f4 : BitVec 4} {r1 r2 : Reg} {op : BitVec 2} {w : BitVec 16}
    (hop : w.extractLsb' 0 2 = op) (h4 : w.extractLsb' 12 4 = f4) (hd : crdF w = r1) (h2 : crs2F w = r2) :
    encCR f4 r1 r2 op = w := by
  subst hop h4 hd h2
  simp (disch := omega) only [encCR, crdF, crs2F, extractLsb'_append_extractLsb'_eq_extractLsb',
    extractLsb'_eq_self]

@[simp] theorem lowParcel_setWidth (p : BitVec 16) : (p.setWidth 32).extractLsb' 0 16 = p := by
  rw [BitVec.extractLsb'_setWidth_of_le (by decide), extractLsb'_eq_self]

end Sys2Proof
end

section
/-! SUPPORT. What `decode32` answers by opcode (R97), and the decoder on the word of an instruction, one lemma for
each extension of R8 and one for the parcels: each case is a constructor, grouped with those that share its format
and its part of the decoder. -/

namespace Sys2Proof

variable {w : BitVec 32}

theorem decode32_lui (h : w.extractLsb' 0 7 = 0b0110111#7) : decode32 w = some (.lui (rdF w) (immU w)) := by
  unfold decode32; rw [h]; rfl

theorem decode32_auipc (h : w.extractLsb' 0 7 = 0b0010111#7) : decode32 w = some (.auipc (rdF w) (immU w)) := by
  unfold decode32; rw [h]; rfl

theorem decode32_jal (h : w.extractLsb' 0 7 = 0b1101111#7) : decode32 w = some (.jal (rdF w) (immJ w)) := by
  unfold decode32; rw [h]; rfl

theorem decode32_jalr (h : w.extractLsb' 0 7 = 0b1100111#7) :
    decode32 w = if f3F w = 0b000#3 then some (.jalr (rdF w) (rs1F w) (immI w)) else none := by
  unfold decode32; rw [h]; rfl

theorem decode32_branch (h : w.extractLsb' 0 7 = 0b1100011#7) : decode32 w = decodeBranch w := by
  unfold decode32; rw [h]; rfl

theorem decode32_load (h : w.extractLsb' 0 7 = 0b0000011#7) : decode32 w = decodeLoad w := by
  unfold decode32; rw [h]; rfl

theorem decode32_store (h : w.extractLsb' 0 7 = 0b0100011#7) : decode32 w = decodeStore w := by
  unfold decode32; rw [h]; rfl

theorem decode32_opImm (h : w.extractLsb' 0 7 = 0b0010011#7) : decode32 w = decodeOpImm w := by
  unfold decode32; rw [h]; rfl

theorem decode32_opImm32 (h : w.extractLsb' 0 7 = 0b0011011#7) : decode32 w = decodeOpImm32 w := by
  unfold decode32; rw [h]; rfl

theorem decode32_op (h : w.extractLsb' 0 7 = 0b0110011#7) : decode32 w = decodeOp w := by
  unfold decode32; rw [h]; rfl

theorem decode32_op32 (h : w.extractLsb' 0 7 = 0b0111011#7) : decode32 w = decodeOp32 w := by
  unfold decode32; rw [h]; rfl

theorem decode32_miscMem (h : w.extractLsb' 0 7 = 0b0001111#7) : decode32 w = decodeMiscMem w := by
  unfold decode32; rw [h]; rfl

theorem decode32_system (h : w.extractLsb' 0 7 = 0b1110011#7) : decode32 w = decodeSystem w := by
  unfold decode32; rw [h]; rfl

theorem decode32_loadFp (h : w.extractLsb' 0 7 = 0b0000111#7) : decode32 w = decodeLoadFp w := by
  unfold decode32; rw [h]; rfl

theorem decode32_storeFp (h : w.extractLsb' 0 7 = 0b0100111#7) : decode32 w = decodeStoreFp w := by
  unfold decode32; rw [h]; rfl

theorem decode32_fmadd (h : w.extractLsb' 0 7 = 0b1000011#7) : decode32 w = decodeFmadd w := by
  unfold decode32; rw [h]; rfl

theorem decode32_fmsub (h : w.extractLsb' 0 7 = 0b1000111#7) : decode32 w = decodeFmsub w := by
  unfold decode32; rw [h]; rfl

theorem decode32_fnmsub (h : w.extractLsb' 0 7 = 0b1001011#7) : decode32 w = decodeFnmsub w := by
  unfold decode32; rw [h]; rfl

theorem decode32_fnmadd (h : w.extractLsb' 0 7 = 0b1001111#7) : decode32 w = decodeFnmadd w := by
  unfold decode32; rw [h]; rfl

theorem decode32_opFp (h : w.extractLsb' 0 7 = 0b1010011#7) : decode32 w = decodeOpFp w := by
  unfold decode32; rw [h]; rfl

theorem decode32_amo (h : w.extractLsb' 0 7 = 0b0101111#7) : decode32 w = decodeAmo w := by
  unfold decode32; rw [h]; rfl

theorem decode32_encode_of_base {i : Instr} (h : i.need = .base) : decode32 (encode i) = some i := by
  cases i with
  | lui => exact (decode32_lui (encU_fields ..).1).trans (by simp)
  | auipc => exact (decode32_auipc (encU_fields ..).1).trans (by simp)
  | jal => exact (decode32_jal (encJ_fields ..).1).trans (by simp)
  | jalr => exact (decode32_jalr (encI_fields ..).1).trans (by simp)
  | beq | bne | blt | bge | bltu | bgeu =>
    exact (decode32_branch (encB_fields ..).1).trans (by simp [decodeBranch])
  | lb | lh | lw | lbu | lhu | lwu | ld => exact (decode32_load (encI_fields ..).1).trans (by simp [decodeLoad])
  | sb | sh | sw | sd => exact (decode32_store (encS_fields ..).1).trans (by simp [decodeStore])
  | addi | slti | sltiu | xori | ori | andi =>
    exact (decode32_opImm (encI_fields ..).1).trans (by simp [decodeOpImm])
  | slli | srli | srai => exact (decode32_opImm (encShift_fields ..).1).trans (by simp [decodeOpImm])
  | add | sub | sll | slt | sltu | xor | srl | sra | or | and =>
    exact (decode32_op (encR_fields ..).1).trans (by simp [decodeOp])
  | fence => exact (decode32_miscMem (encFence_fields ..).1).trans (by simp [decodeMiscMem])
  | fenceI => exact (decode32_miscMem (encI_fields ..).1).trans (by simp [decodeMiscMem])
  | ecall | ebreak | mret | wfi => rfl
  | csrrw | csrrs | csrrc | csrrwi | csrrsi | csrrci =>
    exact (decode32_system (encI_fields ..).1).trans (by simp [decodeSystem])
  | addiw => exact (decode32_opImm32 (encI_fields ..).1).trans (by simp [decodeOpImm32])
  | slliw | srliw | sraiw => exact (decode32_opImm32 (encR_fields ..).1).trans (by simp [decodeOpImm32])
  | addw | subw | sllw | srlw | sraw => exact (decode32_op32 (encR_fields ..).1).trans (by simp [decodeOp32])
  | _ => cases h

theorem decode32_encode_of_modeS {i : Instr} (h : i.need = .modeS) : decode32 (encode i) = some i := by
  cases i with
  | sret => rfl
  | sfenceVma =>
    exact (decode32_system (encR_fields ..).1).trans (by simp (disch := decide) [decodeSystem, encR_ne_of_f7F])
  | _ => cases h

theorem decode32_encode_of_extM {i : Instr} (h : i.need = .extM) : decode32 (encode i) = some i := by
  cases i with
  | mul | mulh | mulhsu | mulhu | div | divu | rem | remu =>
    exact (decode32_op (encR_fields ..).1).trans (by simp [decodeOp])
  | mulw | divw | divuw | remw | remuw => exact (decode32_op32 (encR_fields ..).1).trans (by simp [decodeOp32])
  | _ => cases h

theorem decode32_encode_of_extA {i : Instr} (h : i.need = .extA) : decode32 (encode i) = some i := by
  cases i with
  | lrW | scW | amoswapW | amoaddW | amoxorW | amoandW | amoorW | amominW | amomaxW | amominuW | amomaxuW
  | lrD | scD | amoswapD | amoaddD | amoxorD | amoandD | amoorD | amominD | amomaxD | amominuD | amomaxuD =>
    exact (decode32_amo (encAmo_fields ..).1).trans (by simp [decodeAmo])
  | _ => cases h

theorem decode32_encode_of_extF {i : Instr} (h : i.need = .extF) : decode32 (encode i) = some i := by
  cases i with
  | flw => exact (decode32_loadFp (encI_fields ..).1).trans (by simp [decodeLoadFp])
  | fsw => exact (decode32_storeFp (encS_fields ..).1).trans (by simp [decodeStoreFp])
  | fmaddS => exact (decode32_fmadd (encR4_fields ..).1).trans (by simp [decodeFmadd])
  | fmsubS => exact (decode32_fmsub (encR4_fields ..).1).trans (by simp [decodeFmsub])
  | fnmsubS => exact (decode32_fnmsub (encR4_fields ..).1).trans (by simp [decodeFnmsub])
  | fnmaddS => exact (decode32_fnmadd (encR4_fields ..).1).trans (by simp [decodeFnmadd])
  | faddS | fsubS | fmulS | fdivS | fsqrtS | fsgnjS | fsgnjnS | fsgnjxS | fminS | fmaxS
  | fcvtWS | fcvtWuS | fcvtLS | fcvtLuS | feqS | fltS | fleS | fclassS
  | fcvtSW | fcvtSWu | fcvtSL | fcvtSLu | fmvXW | fmvWX =>
    exact (decode32_opFp (encR_fields ..).1).trans (by simp [decodeOpFp])
  | _ => cases h

theorem decode32_encode_of_extD {i : Instr} (h : i.need = .extD) : decode32 (encode i) = some i := by
  cases i with
  | fld => exact (decode32_loadFp (encI_fields ..).1).trans (by simp [decodeLoadFp])
  | fsd => exact (decode32_storeFp (encS_fields ..).1).trans (by simp [decodeStoreFp])
  | fmaddD => exact (decode32_fmadd (encR4_fields ..).1).trans (by simp [decodeFmadd])
  | fmsubD => exact (decode32_fmsub (encR4_fields ..).1).trans (by simp [decodeFmsub])
  | fnmsubD => exact (decode32_fnmsub (encR4_fields ..).1).trans (by simp [decodeFnmsub])
  | fnmaddD => exact (decode32_fnmadd (encR4_fields ..).1).trans (by simp [decodeFnmadd])
  | faddD | fsubD | fmulD | fdivD | fsqrtD | fsgnjD | fsgnjnD | fsgnjxD | fminD | fmaxD
  | fcvtWD | fcvtWuD | fcvtLD | fcvtLuD | feqD | fltD | fleD | fclassD
  | fcvtDW | fcvtDWu | fcvtDL | fcvtDLu | fmvXD | fmvDX | fcvtSD | fcvtDS =>
    exact (decode32_opFp (encR_fields ..).1).trans (by simp [decodeOpFp])
  | _ => cases h

theorem Instr.xlen_of_existsIn {c : Config} {i : Instr} {x : Xlen} (h : i.existsIn c = true)
    (hx : i.onlyXlen = some x) : c.xlen = x := by
  simp only [Instr.existsIn, hx, Option.all_some, Bool.and_eq_true, beq_iff_eq] at h
  exact h.2.symm

theorem decode32_encode {i : Instr} (size : i.size = 4) : decode32 (encode i) = some i := by
  cases hn : i.need with
  | base => exact decode32_encode_of_base hn
  | extM => exact decode32_encode_of_extM hn
  | extA => exact decode32_encode_of_extA hn
  | extF => exact decode32_encode_of_extF hn
  | extD => exact decode32_encode_of_extD hn
  | modeS => exact decode32_encode_of_modeS hn
  | extC | extCF | extCD => simp [i.size_eq, hn] at size

theorem decode16_of_parcel {x : Xlen} {i : Instr} {p : BitVec 16} (word : encode i = p.setWidth 32)
    (h : decode16 x p = some i) : decode16 x ((encode i).extractLsb' 0 16) = some i := by
  rwa [word, lowParcel_setWidth]

/-- The parcels that name two instructions by their fixed fields are told apart by XLEN, and those with a register
kept out by the extra conditions of R106 by the register. -/
theorem decode16_encode {c : Config} {i : Instr} (size : i.size = 2) (hx : i.existsIn c = true)
    (ok : i.operandsOk c = true) : decode16 c.xlen ((encode i).extractLsb' 0 16) = some i := by
  cases i with
  | cAddi4spn => exact decode16_of_parcel (p := encCIW ..) rfl (by simp [decode16, decodeC0])
  | cFld | cFsd => exact decode16_of_parcel (p := encCL8 ..) rfl (by simp [decode16, decodeC0])
  | cLw | cSw => exact decode16_of_parcel (p := encCL4 ..) rfl (by simp [decode16, decodeC0])
  | cFlw | cFsw =>
    exact decode16_of_parcel (p := encCL4 ..) rfl (by simp [decode16, decodeC0, Instr.xlen_of_existsIn hx rfl])
  | cLd | cSd =>
    exact decode16_of_parcel (p := encCL8 ..) rfl (by simp [decode16, decodeC0, Instr.xlen_of_existsIn hx rfl])
  | cAddi | cLi => exact decode16_of_parcel (p := encCI ..) rfl (by simp [decode16, decodeC1])
  | cAddi16sp => exact decode16_of_parcel (p := encCI16 ..) rfl (by simp [decode16, decodeC1])
  | cLui =>
    simp only [Instr.operandsOk, Bool.and_eq_true, bne_iff_ne, ne_eq, BitVec.ofNat_eq_ofNat] at ok
    exact decode16_of_parcel (p := encCI ..) rfl (by simp [decode16, decodeC1, ok])
  | cJ => exact decode16_of_parcel (p := encCJ ..) rfl (by simp [decode16, decodeC1])
  | cBeqz | cBnez => exact decode16_of_parcel (p := encCB ..) rfl (by simp [decode16, decodeC1])
  | cJal =>
    exact decode16_of_parcel (p := encCJ ..) rfl (by simp [decode16, decodeC1, Instr.xlen_of_existsIn hx rfl])
  | cAddiw =>
    exact decode16_of_parcel (p := encCI ..) rfl (by simp [decode16, decodeC1, Instr.xlen_of_existsIn hx rfl])
  | cSrli | cSrai | cAndi =>
    exact decode16_of_parcel (p := encCBI ..) rfl (by simp [decode16, decodeC1, decodeCArith])
  | cSub | cXor | cOr | cAnd | cSubw | cAddw =>
    exact decode16_of_parcel (p := encCA ..) rfl (by simp [decode16, decodeC1, decodeCArith])
  | cSlli => exact decode16_of_parcel (p := encCI ..) rfl (by simp [decode16, decodeC2])
  | cFldsp => exact decode16_of_parcel (p := encCI8 ..) rfl (by simp [decode16, decodeC2])
  | cLwsp => exact decode16_of_parcel (p := encCI4 ..) rfl (by simp [decode16, decodeC2])
  | cFlwsp =>
    exact decode16_of_parcel (p := encCI4 ..) rfl (by simp [decode16, decodeC2, Instr.xlen_of_existsIn hx rfl])
  | cLdsp =>
    exact decode16_of_parcel (p := encCI8 ..) rfl (by simp [decode16, decodeC2, Instr.xlen_of_existsIn hx rfl])
  | cJr => exact decode16_of_parcel (p := encCR ..) rfl (by simp [decode16, decodeC2, decodeCJump])
  | cMv | cJalr | cAdd =>
    simp only [Instr.operandsOk, Bool.and_eq_true, bne_iff_ne, ne_eq, BitVec.ofNat_eq_ofNat] at ok
    exact decode16_of_parcel (p := encCR ..) rfl (by simp [decode16, decodeC2, decodeCJump, ok])
  | cEbreak => exact decode16_of_parcel (p := encCR ..) rfl rfl
  | cFsdsp => exact decode16_of_parcel (p := encCSS8 ..) rfl (by simp [decode16, decodeC2])
  | cSwsp => exact decode16_of_parcel (p := encCSS4 ..) rfl (by simp [decode16, decodeC2])
  | cFswsp =>
    exact decode16_of_parcel (p := encCSS4 ..) rfl (by simp [decode16, decodeC2, Instr.xlen_of_existsIn hx rfl])
  | cSdsp =>
    exact decode16_of_parcel (p := encCSS8 ..) rfl (by simp [decode16, decodeC2, Instr.xlen_of_existsIn hx rfl])
  | _ => cases size

end Sys2Proof
end

section
/-! SUPPORT. A word that `decode32` reads is the word of the instruction it reads (R105), one lemma for each part of
the decoder. -/

namespace Sys2Proof

/-- The instruction has four bytes, and they are this word. -/
structure Instr.HasWord (i : Instr) (w : BitVec 32) : Prop where
  encode_eq : encode i = w
  size_eq : i.size = 4

variable {w : BitVec 32} {i : Instr}

theorem hasWord_of_decodeBranch (hop : w.extractLsb' 0 7 = 0b1100011#7) (h : decodeBranch w = some i) :
    i.HasWord w := by
  unfold decodeBranch at h
  split at h <;> cases h <;> exact ⟨encB_of_fields hop rfl rfl rfl ‹_›, rfl⟩

theorem hasWord_of_decodeLoad (hop : w.extractLsb' 0 7 = 0b0000011#7) (h : decodeLoad w = some i) :
    i.HasWord w := by
  unfold decodeLoad at h
  split at h <;> cases h <;> exact ⟨encI_of_fields hop rfl rfl ‹_› rfl, rfl⟩

theorem hasWord_of_decodeStore (hop : w.extractLsb' 0 7 = 0b0100011#7) (h : decodeStore w = some i) :
    i.HasWord w := by
  unfold decodeStore at h
  split at h <;> cases h <;> exact ⟨encS_of_fields hop rfl rfl rfl ‹_›, rfl⟩

theorem hasWord_of_decodeLoadFp (hop : w.extractLsb' 0 7 = 0b0000111#7) (h : decodeLoadFp w = some i) :
    i.HasWord w := by
  unfold decodeLoadFp at h
  split at h <;> cases h <;> exact ⟨encI_of_fields hop rfl rfl ‹_› rfl, rfl⟩

theorem hasWord_of_decodeStoreFp (hop : w.extractLsb' 0 7 = 0b0100111#7) (h : decodeStoreFp w = some i) :
    i.HasWord w := by
  unfold decodeStoreFp at h
  split at h <;> cases h <;> exact ⟨encS_of_fields hop rfl rfl rfl ‹_›, rfl⟩

theorem hasWord_of_decodeOpImm (hop : w.extractLsb' 0 7 = 0b0010011#7) (h : decodeOpImm w = some i) :
    i.HasWord w := by
  have imm {f3} (h3 : f3F w = f3) : encI (immI w) (rs1F w) f3 (rdF w) 0b0010011#7 = w :=
    encI_of_fields hop rfl rfl h3 rfl
  have shift {f6 f3} (h6 : f6F w = f6) (h3 : f3F w = f3) :
      encShift f6 (shamtF w) (rs1F w) f3 (rdF w) 0b0010011#7 = w :=
    encShift_of_fields hop h6 rfl rfl h3 rfl
  unfold decodeOpImm at h
  split at h
  case h_2 | h_6 => split at h <;> cases h <;> exact ⟨shift ‹_› ‹_›, rfl⟩
  all_goals cases h; exact ⟨imm ‹_›, rfl⟩

theorem hasWord_of_decodeOpImm32 (hop : w.extractLsb' 0 7 = 0b0011011#7) (h : decodeOpImm32 w = some i) :
    i.HasWord w := by
  unfold decodeOpImm32 at h
  split at h
  · cases h; exact ⟨encI_of_fields hop rfl rfl ‹_› rfl, rfl⟩
  · split at h <;> cases h; exact ⟨encR_of_fields hop ‹_› rfl rfl ‹_› rfl, rfl⟩
  · split at h <;> cases h <;> exact ⟨encR_of_fields hop ‹_› rfl rfl ‹_› rfl, rfl⟩
  · cases h

theorem hasWord_of_decodeOp (hop : w.extractLsb' 0 7 = 0b0110011#7) (h : decodeOp w = some i) :
    i.HasWord w := by
  unfold decodeOp at h
  split at h <;> cases h <;> exact ⟨encR_of_fields hop ‹_› rfl rfl ‹_› rfl, rfl⟩

theorem hasWord_of_decodeOp32 (hop : w.extractLsb' 0 7 = 0b0111011#7) (h : decodeOp32 w = some i) :
    i.HasWord w := by
  unfold decodeOp32 at h
  split at h <;> cases h <;> exact ⟨encR_of_fields hop ‹_› rfl rfl ‹_› rfl, rfl⟩

theorem hasWord_of_decodeMiscMem (hop : w.extractLsb' 0 7 = 0b0001111#7) (h : decodeMiscMem w = some i) :
    i.HasWord w := by
  unfold decodeMiscMem at h
  split at h <;> cases h
  · exact ⟨encFence_of_fields hop rfl rfl rfl rfl ‹_› rfl, rfl⟩
  · exact ⟨encI_of_fields hop rfl rfl ‹_› rfl, rfl⟩

theorem hasWord_of_decodeSystem (hop : w.extractLsb' 0 7 = 0b1110011#7) (h : decodeSystem w = some i) :
    i.HasWord w := by
  unfold decodeSystem at h
  split at h
  case h_1 h3 =>
    repeat' split at h
    case isFalse.isFalse.isFalse.isFalse.isFalse.isTrue fence =>
      cases h; exact ⟨encR_of_fields hop fence.1 rfl rfl h3 fence.2, rfl⟩
    all_goals cases h
    all_goals exact ⟨Eq.symm ‹_›, rfl⟩
  all_goals cases h
  all_goals exact ⟨encI_of_fields hop rfl rfl ‹_› rfl, rfl⟩

theorem hasWord_of_decodeAmo (hop : w.extractLsb' 0 7 = 0b0101111#7) (h : decodeAmo w = some i) :
    i.HasWord w := by
  have amo {f5 rs2 f3} (h5 : f5F w = f5) (h2 : rs2F w = rs2) (h3 : f3F w = f3) :
      encAmo f5 (aqF w) (rlF w) rs2 (rs1F w) f3 (rdF w) 0b0101111#7 = w :=
    encAmo_of_fields hop h5 rfl rfl h2 rfl h3 rfl
  unfold decodeAmo at h
  split at h
  case h_5 | h_6 => split at h <;> cases h; exact ⟨amo ‹_› ‹_› ‹_›, rfl⟩
  all_goals cases h
  all_goals exact ⟨amo ‹_› rfl ‹_›, rfl⟩

theorem hasWord_of_decodeFmadd (hop : w.extractLsb' 0 7 = 0b1000011#7) (h : decodeFmadd w = some i) :
    i.HasWord w := by
  unfold decodeFmadd at h
  split at h <;> cases h <;> exact ⟨encR4_of_fields hop rfl ‹_› rfl rfl rfl rfl, rfl⟩

theorem hasWord_of_decodeFmsub (hop : w.extractLsb' 0 7 = 0b1000111#7) (h : decodeFmsub w = some i) :
    i.HasWord w := by
  unfold decodeFmsub at h
  split at h <;> cases h <;> exact ⟨encR4_of_fields hop rfl ‹_› rfl rfl rfl rfl, rfl⟩

theorem hasWord_of_decodeFnmsub (hop : w.extractLsb' 0 7 = 0b1001011#7) (h : decodeFnmsub w = some i) :
    i.HasWord w := by
  unfold decodeFnmsub at h
  split at h <;> cases h <;> exact ⟨encR4_of_fields hop rfl ‹_› rfl rfl rfl rfl, rfl⟩

theorem hasWord_of_decodeFnmadd (hop : w.extractLsb' 0 7 = 0b1001111#7) (h : decodeFnmadd w = some i) :
    i.HasWord w := by
  unfold decodeFnmadd at h
  split at h <;> cases h <;> exact ⟨encR4_of_fields hop rfl ‹_› rfl rfl rfl rfl, rfl⟩

theorem hasWord_of_decodeOpFp (hop : w.extractLsb' 0 7 = 0b1010011#7) (h : decodeOpFp w = some i) :
    i.HasWord w := by
  have word {f7 rs2 f3} (h7 : f7F w = f7) (h2 : rs2F w = rs2) (h3 : f3F w = f3) :
      encR f7 rs2 (rs1F w) f3 (rdF w) 0b1010011#7 = w :=
    encR_of_fields hop h7 h2 rfl h3 rfl
  unfold decodeOpFp at h
  split at h
  case h_27 => cases h
  -- What a part tests besides `funct7`: `funct3`, the `rs2` field, both, or nothing.
  case h_9 | h_10 | h_11 | h_12 | h_17 | h_18 => split at h <;> cases h <;> exact ⟨word ‹_› rfl ‹_›, rfl⟩
  case h_13 | h_14 | h_15 | h_16 | h_19 | h_20 | h_21 | h_22 =>
    split at h <;> cases h <;> exact ⟨word ‹_› ‹_› rfl, rfl⟩
  case h_23 | h_24 | h_25 | h_26 => split at h <;> cases h <;> exact ⟨word ‹_› ‹_› ‹_›, rfl⟩
  all_goals cases h
  all_goals exact ⟨word ‹_› rfl rfl, rfl⟩

/-- The opcode (R97) names the part of the decoder, and each part puts the word together again. -/
theorem hasWord_of_decode32 (h : decode32 w = some i) : i.HasWord w := by
  unfold decode32 at h
  split at h
  case h_1 | h_2 => cases h; exact ⟨encU_of_fields ‹_› rfl rfl, rfl⟩
  case h_3 => cases h; exact ⟨encJ_of_fields ‹_› rfl rfl, rfl⟩
  case h_4 => split at h <;> cases h; exact ⟨encI_of_fields ‹_› rfl rfl ‹_› rfl, rfl⟩
  case h_5 => exact hasWord_of_decodeBranch ‹_› h
  case h_6 => exact hasWord_of_decodeLoad ‹_› h
  case h_7 => exact hasWord_of_decodeStore ‹_› h
  case h_8 => exact hasWord_of_decodeOpImm ‹_› h
  case h_9 => exact hasWord_of_decodeOpImm32 ‹_› h
  case h_10 => exact hasWord_of_decodeOp ‹_› h
  case h_11 => exact hasWord_of_decodeOp32 ‹_› h
  case h_12 => exact hasWord_of_decodeMiscMem ‹_› h
  case h_13 => exact hasWord_of_decodeSystem ‹_› h
  case h_14 => exact hasWord_of_decodeLoadFp ‹_› h
  case h_15 => exact hasWord_of_decodeStoreFp ‹_› h
  case h_16 => exact hasWord_of_decodeFmadd ‹_› h
  case h_17 => exact hasWord_of_decodeFmsub ‹_› h
  case h_18 => exact hasWord_of_decodeFnmsub ‹_› h
  case h_19 => exact hasWord_of_decodeFnmadd ‹_› h
  case h_20 => exact hasWord_of_decodeOpFp ‹_› h
  case h_21 => exact hasWord_of_decodeAmo ‹_› h
  case h_22 => cases h

end Sys2Proof
end

section
/-! SUPPORT. A parcel that `decode16` reads is the parcel of the instruction it reads (R106), one lemma for each
quadrant and group of R101. -/

namespace Sys2Proof

/-- The instruction has two bytes, and they are this parcel. -/
structure Instr.HasParcel (i : Instr) (p : BitVec 16) : Prop where
  encode_eq : encode i = p.setWidth 32
  size_eq : i.size = 2

theorem bits2_eq_three {f : BitVec 2} (h0 : f ≠ 0#2) (h1 : f ≠ 1#2) (h2 : f ≠ 2#2) : f = 3#2 := by
  bv_omega

theorem bits3_eq_seven {f : BitVec 3} (h0 : f ≠ 0#3) (h1 : f ≠ 1#3) (h2 : f ≠ 2#3) (h3 : f ≠ 3#3)
    (h4 : f ≠ 4#3) (h5 : f ≠ 5#3) (h6 : f ≠ 6#3) : f = 7#3 := by
  bv_omega

variable {x : Xlen} {p : BitVec 16} {i : Instr}

/-- From the parcel the encoder builds, where it is the given one. -/
theorem hasParcel_of {q : BitVec 16} (size : i.size = 2) (word : encode i = q.setWidth 32) (h : q = p) :
    i.HasParcel p :=
  ⟨h ▸ word, size⟩

theorem hasParcel_of_decodeC0 (hop : p.extractLsb' 0 2 = 0b00#2) (h : decodeC0 x p = some i) :
    i.HasParcel p := by
  have cl4 {f3} (h3 : p.extractLsb' 13 3 = f3) : encCL4 f3 (immCL4 p) (crs1pF p) (crs2pF p) 0b00#2 = p :=
    encCL4_of_fields hop h3 rfl rfl rfl
  have cl8 {f3} (h3 : p.extractLsb' 13 3 = f3) : encCL8 f3 (immCL8 p) (crs1pF p) (crs2pF p) 0b00#2 = p :=
    encCL8_of_fields hop h3 rfl rfl rfl
  unfold decodeC0 at h
  split at h
  case h_1 h3 => cases h; exact hasParcel_of rfl rfl (encCIW_of_fields hop h3 rfl rfl)
  case h_2 | h_5 => cases h; exact hasParcel_of rfl rfl (cl8 ‹_›)
  case h_3 | h_6 => cases h; exact hasParcel_of rfl rfl (cl4 ‹_›)
  case h_4 | h_7 =>
    split at h <;> cases h
    · exact hasParcel_of rfl rfl (cl4 ‹_›)
    · exact hasParcel_of rfl rfl (cl8 ‹_›)
  case h_8 => cases h

theorem hasParcel_of_decodeCArith (hop : p.extractLsb' 0 2 = 0b01#2) (h3 : p.extractLsb' 13 3 = 0b100#3)
    (h : decodeCArith p = some i) : i.HasParcel p := by
  unfold decodeCArith at h
  split at h
  case h_1 | h_2 | h_3 => cases h; exact hasParcel_of rfl rfl (encCBI_of_fields hop h3 rfl ‹_› rfl)
  case h_4 h00 h01 h10 =>
    have h6 {a : BitVec 1} (h1 : p.extractLsb' 12 1 = a) : p.extractLsb' 10 6 = 0b100#3 ++ a ++ 0b11#2 := by
      rw [← h3, ← h1, ← bits2_eq_three h00 h01 h10]
      simp (disch := omega) only [BitVec.extractLsb'_append_extractLsb'_eq_extractLsb']
    split at h <;> cases h <;> exact hasParcel_of rfl rfl (encCA_of_fields hop (h6 ‹_›) rfl ‹_› rfl)

theorem hasParcel_of_decodeC1 (hop : p.extractLsb' 0 2 = 0b01#2) (h : decodeC1 x p = some i) :
    i.HasParcel p := by
  have ci {f3} (h3 : p.extractLsb' 13 3 = f3) : encCI f3 (immCI p) (crdF p) 0b01#2 = p :=
    encCI_of_fields hop h3 rfl rfl
  have cj {f3} (h3 : p.extractLsb' 13 3 = f3) : encCJ f3 (immCJ p) 0b01#2 = p :=
    encCJ_of_fields hop h3 rfl
  have cb {f3} (h3 : p.extractLsb' 13 3 = f3) : encCB f3 (immCB p) (crs1pF p) 0b01#2 = p :=
    encCB_of_fields hop h3 rfl rfl
  unfold decodeC1 at h
  split at h
  case h_1 | h_3 => cases h; exact hasParcel_of rfl rfl (ci ‹_›)
  case h_2 =>
    split at h <;> cases h
    · exact hasParcel_of rfl rfl (cj ‹_›)
    · exact hasParcel_of rfl rfl (ci ‹_›)
  case h_4 h3 =>
    split at h <;> cases h
    · exact hasParcel_of rfl rfl (encCI16_of_fields hop h3 rfl ‹_›)
    · exact hasParcel_of rfl rfl (ci h3)
  case h_5 h3 => exact hasParcel_of_decodeCArith hop h3 h
  case h_6 => cases h; exact hasParcel_of rfl rfl (cj ‹_›)
  case h_7 => cases h; exact hasParcel_of rfl rfl (cb ‹_›)
  case h_8 n0 n1 n2 n3 n4 n5 n6 =>
    cases h; exact hasParcel_of rfl rfl (cb (bits3_eq_seven n0 n1 n2 n3 n4 n5 n6))

theorem hasParcel_of_decodeCJump (hop : p.extractLsb' 0 2 = 0b10#2) (h3 : p.extractLsb' 13 3 = 0b100#3)
    (h : decodeCJump p = some i) : i.HasParcel p := by
  have h4 {a : BitVec 1} (h1 : p.extractLsb' 12 1 = a) : p.extractLsb' 12 4 = 0b100#3 ++ a := by
    rw [← h3, ← h1]
    simp (disch := omega) only [BitVec.extractLsb'_append_extractLsb'_eq_extractLsb']
  unfold decodeCJump at h
  split at h
  · split at h <;> cases h
    · exact hasParcel_of rfl rfl (encCR_of_fields hop (h4 ‹_›) rfl ‹_›)
    · exact hasParcel_of rfl rfl (encCR_of_fields hop (h4 ‹_›) rfl rfl)
  · next h0 =>
    have h1 := (BitVec.eq_zero_or_eq_one _).resolve_left h0
    split at h
    · split at h <;> cases h
      · exact hasParcel_of rfl rfl (encCR_of_fields hop (h4 h1) ‹_› ‹_›)
      · exact hasParcel_of rfl rfl (encCR_of_fields hop (h4 h1) rfl ‹_›)
    · cases h
      exact hasParcel_of rfl rfl (encCR_of_fields hop (h4 h1) rfl rfl)

theorem hasParcel_of_decodeC2 (hop : p.extractLsb' 0 2 = 0b10#2) (h : decodeC2 x p = some i) :
    i.HasParcel p := by
  have ci4 {f3} (h3 : p.extractLsb' 13 3 = f3) : encCI4 f3 (immCI4 p) (crdF p) 0b10#2 = p :=
    encCI4_of_fields hop h3 rfl rfl
  have ci8 {f3} (h3 : p.extractLsb' 13 3 = f3) : encCI8 f3 (immCI8 p) (crdF p) 0b10#2 = p :=
    encCI8_of_fields hop h3 rfl rfl
  have css4 {f3} (h3 : p.extractLsb' 13 3 = f3) : encCSS4 f3 (immCSS4 p) (crs2F p) 0b10#2 = p :=
    encCSS4_of_fields hop h3 rfl rfl
  have css8 {f3} (h3 : p.extractLsb' 13 3 = f3) : encCSS8 f3 (immCSS8 p) (crs2F p) 0b10#2 = p :=
    encCSS8_of_fields hop h3 rfl rfl
  unfold decodeC2 at h
  split at h
  case h_1 h3 => cases h; exact hasParcel_of rfl rfl (encCI_of_fields hop h3 rfl rfl)
  case h_2 => cases h; exact hasParcel_of rfl rfl (ci8 ‹_›)
  case h_3 => cases h; exact hasParcel_of rfl rfl (ci4 ‹_›)
  case h_4 =>
    split at h <;> cases h
    · exact hasParcel_of rfl rfl (ci4 ‹_›)
    · exact hasParcel_of rfl rfl (ci8 ‹_›)
  case h_5 h3 => exact hasParcel_of_decodeCJump hop h3 h
  case h_6 => cases h; exact hasParcel_of rfl rfl (css8 ‹_›)
  case h_7 => cases h; exact hasParcel_of rfl rfl (css4 ‹_›)
  case h_8 n0 n1 n2 n3 n4 n5 n6 =>
    have h7 := bits3_eq_seven n0 n1 n2 n3 n4 n5 n6
    split at h <;> cases h
    · exact hasParcel_of rfl rfl (css4 h7)
    · exact hasParcel_of rfl rfl (css8 h7)

/-- The quadrant (R101) names the part of the decoder, and each part puts the parcel together again. -/
theorem hasParcel_of_decode16 (h : decode16 x p = some i) : i.HasParcel p := by
  unfold decode16 at h
  split at h
  case h_1 => exact hasParcel_of_decodeC0 ‹_› h
  case h_2 => exact hasParcel_of_decodeC1 ‹_› h
  case h_3 => exact hasParcel_of_decodeC2 ‹_› h
  case h_4 => cases h

end Sys2Proof
end

section
/-! The whole decoder: the two lengths put together, and the two statements about it. -/

namespace Sys2Proof

/-- The length bits of a word's low parcel are the word's own (R80). -/
theorem isLong_lowParcel (w : BitVec 32) : isLong (w.extractLsb' 0 16) = true ↔ w.extractLsb' 0 2 = 3#2 := by
  rw [isLong, beq_iff_eq, BitVec.extractLsb'_extractLsb'_of_le (by decide)]

theorem low_of_opcode {w : BitVec 32} {op : BitVec 7} (hop : w.extractLsb' 0 7 = op)
    (low : op.extractLsb' 0 2 = 3#2) : w.extractLsb' 0 2 = 3#2 := by
  rw [← low, ← hop, BitVec.extractLsb'_extractLsb'_of_le (by decide)]

theorem isLong_of_decode32 {w : BitVec 32} {i : Instr} (h : decode32 w = some i) :
    isLong (w.extractLsb' 0 16) = true := by
  rw [isLong_lowParcel]
  unfold decode32 at h
  split at h
  case h_22 => cases h
  all_goals exact low_of_opcode ‹_› (by decide)

theorem not_isLong_of_decode16 {x : Xlen} {p : BitVec 16} {i : Instr} (h : decode16 x p = some i) :
    isLong p = false := by
  unfold decode16 at h
  split at h
  case h_4 => cases h
  all_goals rw [isLong, ‹p.extractLsb' 0 2 = _›]; decide

theorem checkDecoded_eq_instr {c : Config} {o : Option Instr} {i : Instr} :
    checkDecoded c o = .instr i ↔ o = some i ∧ i.existsIn c = true ∧ i.operandsOk c = true := by
  cases o with
  | none => simp [checkDecoded]
  | some j =>
    constructor
    · intro h
      rw [checkDecoded] at h
      split at h
      · split at h <;> cases h
        exact ⟨rfl, ‹_›, ‹_›⟩
      · cases h
    · rintro ⟨⟨⟩, hx, ok⟩
      rw [checkDecoded, if_pos hx, if_pos ok]

/-- What a word that begins with a long parcel decodes to (R83). -/
theorem decode_long_eq_instr {c : Config} {w : BitVec 32} {i : Instr} (hl : isLong (w.extractLsb' 0 16) = true) :
    decode c w = .instr i ↔ decode32 w = some i ∧ i.existsIn c = true ∧ i.operandsOk c = true := by
  rw [decode, if_pos hl, checkDecoded_eq_instr]

/-- What a word that begins with a short parcel decodes to (R83). -/
theorem decode_short_eq_instr {c : Config} {w : BitVec 32} {i : Instr} (hl : isLong (w.extractLsb' 0 16) = false) :
    decode c w = .instr i ↔
      decode16 c.xlen (w.extractLsb' 0 16) = some i ∧ i.existsIn c = true ∧ i.operandsOk c = true := by
  rw [decode, if_neg (Bool.eq_false_iff.1 hl), checkDecoded_eq_instr]

theorem Instr.size_eq_four_or_two (i : Instr) : i.size = 4 ∨ i.size = 2 := by
  rw [i.size_eq]
  split
  · exact .inr rfl
  · exact .inl rfl

/-- Settles O1: the instruction's length picks the decoder, which reads every field back from its format. -/
theorem decodeUndoesEncode : Obligations.DecodeUndoesEncode := by
  intro c i hx ok
  rcases i.size_eq_four_or_two with size | size
  · have hd := decode32_encode size
    exact (decode_long_eq_instr (isLong_of_decode32 hd)).2 ⟨hd, hx, ok⟩
  · have hd := decode16_encode size hx ok
    exact (decode_short_eq_instr (not_isLong_of_decode16 hd)).2 ⟨hd, hx, ok⟩

/-- Settles O2: the length bits say which decoder read the word, and its parts account for every bit. -/
theorem encodeUndoesDecode : Obligations.EncodeUndoesDecode := by
  intro c w i h
  cases hl : isLong (w.extractLsb' 0 16) with
  | true =>
    have low := (isLong_lowParcel w).1 hl
    obtain ⟨hd, hx, ok⟩ := (decode_long_eq_instr hl).1 h
    obtain ⟨word, size⟩ := hasWord_of_decode32 hd
    exact ⟨hx, ok, iff_of_true size low, by rw [if_pos low, word]⟩
  | false =>
    have low : w.extractLsb' 0 2 ≠ 3#2 := fun e => Bool.eq_false_iff.1 hl ((isLong_lowParcel w).2 e)
    obtain ⟨hd, hx, ok⟩ := (decode_short_eq_instr hl).1 h
    obtain ⟨parcel, size⟩ := hasParcel_of_decode16 hd
    exact ⟨hx, ok, iff_of_false (by rw [size]; decide) low, by rw [if_neg low, parcel]⟩

end Sys2Proof
end

section
/-! The integer computation (R109 to R139): every instruction of it is a `putX`, so each result is a fact about the
number of the word it writes, modulo 2^XLEN. -/

namespace Sys2Proof.Machine

open Sys2Proof

/-- An instruction that means a `putX` computes the number of the word it puts (R23). -/
theorem State.computes_of_putX {i : Instr} {s : State} {rd : Reg} {v : Word} {n : Int} {len : Nat}
    (hi : exec i s = s.putX rd v len) (h : s.wrap v.toNat = s.wrap n) : Computes i s rd n len := by
  obtain ⟨t, ht, done⟩ := s.putX_computes rd v n len h
  exact ⟨t, hi.trans ht, done⟩

/-! ## Sums, differences and pc-relative sums (R110, R111, R116, R117, R136) -/

theorem State.wrap_wrap (s : State) (v : Int) : s.wrap (s.wrap v) = s.wrap v := by
  rw [s.wrap_natCast, Nat.mod_eq_of_lt (s.wrap_lt v)]

/-- A sum of containers, the second read as signed: a register and an immediate. -/
theorem State.wrap_add_toInt (s : State) (a b : Word) : s.wrap (a + b).toNat = s.wrap (a.toNat + b.toInt) := by
  apply s.wrap_congr
  rw [BitVec.toNat_add, BitVec.toInt_eq_toNat_cond]
  split <;> omega

theorem State.wrap_add (s : State) (a b : Word) : s.wrap (a + b).toNat = s.wrap (a.toNat + b.toNat) := by
  apply s.wrap_congr
  rw [BitVec.toNat_add]
  omega

theorem State.wrap_sub (s : State) (a b : Word) : s.wrap (a - b).toNat = s.wrap (a.toNat - b.toNat) := by
  apply s.wrap_congr
  rw [BitVec.toNat_sub]
  omega

/-- The operand of `lui` and `auipc` is its field, times 4096 (R91). -/
theorem upperImm_toInt (imm : BitVec 20) : (upperImm imm).toInt = 4096 * imm.toInt := by
  unfold upperImm
  rw [BitVec.toInt_signExtend_of_le (by decide), append_zeros_toInt]
  omega

/-- Settles O12: each of the five puts the word whose number is the sum or difference. -/
theorem addSubtractResults : Obligations.AddSubtractResults := by
  unfold Obligations.AddSubtractResults
  intro s rd rs1 rs2 imm upper
  refine ⟨State.computes_of_putX rfl (s.wrap_add _ _), State.computes_of_putX rfl ?addi,
    State.computes_of_putX rfl (s.wrap_sub _ _), State.computes_of_putX rfl ?lui, State.computes_of_putX rfl ?auipc⟩
  case addi => rw [s.wrap_add_toInt, imm12_toInt]; rfl
  case lui => rw [← s.wrap_toInt, upperImm_toInt]
  case auipc => rw [s.pcPlus_toNat, s.wrap_wrap, upperImm_toInt]

/-! ## Bitwise operations and comparisons (R114, R115, R118, R119, R124 to R127, R138, R139) -/

/-- The low XLEN bits of an immediate's container are the XLEN-bit pattern of the immediate. -/
theorem State.norm_imm12 (s : State) (imm : BitVec 12) :
    (s.cfg.xlen.norm (imm12 imm)).toNat = s.wrap imm.toInt := by
  rw [← s.wrap_toNat, ← s.wrap_toInt, imm12_toInt]

/-- A bitwise operation, one that acts on the low bits alone, may take the XLEN-bit pattern of an immediate for
the immediate's container. -/
theorem State.wrap_bitwise_imm12 (s : State) {f : Nat → Nat → Nat}
    (hf : ∀ {a b n : Nat}, f a b % 2 ^ n = f (a % 2 ^ n) (b % 2 ^ n)) (a : Nat) (imm : BitVec 12) :
    s.wrap (f a (imm12 imm).toNat) = s.wrap (f a (s.wrap imm.toInt) : Nat) := by
  have hlow : s.wrap imm.toInt % 2 ^ s.cfg.xlen.bits = s.wrap imm.toInt := Nat.mod_eq_of_lt (s.wrap_lt _)
  rw [s.wrap_natCast, s.wrap_natCast, State.modulus, hf, ← Xlen.norm_toNat, s.norm_imm12, hf (b := s.wrap imm.toInt),
    hlow]

/-- A 12-bit immediate keeps its number in the signed view of either width. -/
theorem signedView_imm12 (x : Xlen) (imm : BitVec 12) : signedView x (imm12 imm) = imm.toInt := by
  have lo : -2 ^ 11 ≤ imm.toInt := imm.le_toInt
  have hi : imm.toInt < 2 ^ 11 := imm.toInt_lt
  have hcong : ((imm12 imm).toNat : Int) % 2 ^ 64 = imm.toInt % 2 ^ 64 := by
    rw [← imm12_toInt, BitVec.toInt_eq_toNat_bmod]
    exact Int.bmod_emod.symm
  rw [signedView_eq, Int.bmod_def]
  cases x <;> simp only [Xlen.bits] <;> omega

/-- The test of `slti`. -/
theorem State.ltSigned_imm12 (s : State) (r : Reg) (imm : BitVec 12) :
    ltSigned s.cfg.xlen (s.getX r) (imm12 imm) = decide (s.sx r < imm.toInt) := by
  rw [← s.signedView_getX, ← signedView_imm12 s.cfg.xlen imm]
  exact BitVec.slt_eq_decide

/-- The test of `sltiu`, whose immediate is sign-extended before it is read as unsigned (R126). -/
theorem State.ltUnsigned_imm12 (s : State) (r : Reg) (imm : BitVec 12) :
    ltUnsigned s.cfg.xlen (s.getX r) (imm12 imm) = decide (s.ux r < s.wrap imm.toInt) := by
  rw [ltUnsigned, BitVec.ult_eq_decide, s.norm_getX, s.norm_imm12]
  rfl

/-- The word of a test is 1 where it holds, else 0. -/
theorem State.wrap_boolWord (s : State) {b : Bool} {p : Prop} [Decidable p] (h : b = decide p) :
    s.wrap (boolWord b).toNat = s.wrap (if p then 1 else 0) := by
  subst h
  by_cases hp : p <;> simp [boolWord, hp]

/-- Settles O13: the bitwise operations on the containers' numbers, the comparisons by what their tests decide. -/
theorem bitwiseAndSetLessThanResults : Obligations.BitwiseAndSetLessThanResults := by
  unfold Obligations.BitwiseAndSetLessThanResults
  intro s rd rs1 rs2 imm
  refine ⟨State.computes_of_putX rfl ?and, State.computes_of_putX rfl ?or, State.computes_of_putX rfl ?xor,
    State.computes_of_putX rfl ?andi, State.computes_of_putX rfl ?ori, State.computes_of_putX rfl ?xori,
    State.computes_of_putX rfl (s.wrap_boolWord (s.ltSigned_getX rs1 rs2)),
    State.computes_of_putX rfl (s.wrap_boolWord (s.ltSigned_imm12 rs1 imm)),
    State.computes_of_putX rfl (s.wrap_boolWord (s.ltUnsigned_getX rs1 rs2)),
    State.computes_of_putX rfl (s.wrap_boolWord (s.ltUnsigned_imm12 rs1 imm))⟩
  case and => rw [BitVec.toNat_and]; rfl
  case or => rw [BitVec.toNat_or]; rfl
  case xor => rw [BitVec.toNat_xor]; rfl
  case andi => rw [BitVec.toNat_and]; exact s.wrap_bitwise_imm12 Nat.and_mod_two_pow _ imm
  case ori => rw [BitVec.toNat_or]; exact s.wrap_bitwise_imm12 Nat.or_mod_two_pow _ imm
  case xori => rw [BitVec.toNat_xor]; exact s.wrap_bitwise_imm12 Nat.xor_mod_two_pow _ imm

/-! ## Shifts (R120, R121, R128, R129, R132, R133) -/

/-- A left shift multiplies by 2^n (R120). -/
theorem State.wrap_shiftLeft (s : State) (r : Reg) (n : Nat) :
    s.wrap (shiftLeft (s.getX r) n).toNat = s.wrap (s.ux r * 2 ^ n) := by
  apply s.wrap_congr
  rw [shiftLeft, BitVec.toNat_shiftLeft, Nat.shiftLeft_eq]
  push_cast
  exact Int.emod_emod_of_dvd _ dvd_rfl

/-- A logical right shift divides the unsigned number by 2^n (R132). -/
theorem State.wrap_shiftRight (s : State) (r : Reg) (n : Nat) :
    s.wrap (shiftRight s.cfg.xlen (s.getX r) n).toNat = s.wrap (s.ux r / 2 ^ n) := by
  rw [shiftRight, s.norm_getX, BitVec.toNat_ushiftRight, Nat.shiftRight_eq_div_pow]
  push_cast
  rfl

/-- An arithmetic right shift divides the signed number by 2^n, rounding down (R128). -/
theorem State.wrap_shiftRightArith (s : State) (r : Reg) (n : Nat) :
    s.wrap (shiftRightArith s.cfg.xlen (s.getX r) n).toNat = s.wrap (s.sx r / 2 ^ n) := by
  rw [← s.wrap_toInt, shiftRightArith, BitVec.toInt_sshiftRight, Int.shiftRight_eq_div_pow, ← s.signedView_getX]
  push_cast
  rfl

/-- Settles O14: a shift by a register and one by the field differ in the amount alone. -/
theorem shiftResults : Obligations.ShiftResults := by
  unfold Obligations.ShiftResults
  intro s rd rs1 rs2 shamt n
  exact ⟨State.computes_of_putX rfl (s.wrap_shiftLeft rs1 n),
    State.computes_of_putX rfl (s.wrap_shiftLeft rs1 shamt.toNat),
    State.computes_of_putX rfl (s.wrap_shiftRight rs1 n),
    State.computes_of_putX rfl (s.wrap_shiftRight rs1 shamt.toNat),
    State.computes_of_putX rfl (s.wrap_shiftRightArith rs1 n),
    State.computes_of_putX rfl (s.wrap_shiftRightArith rs1 shamt.toNat)⟩

/-! ## Word forms (R112, R113, R122, R123, R130, R131, R134, R135, R137) -/

theorem low32_congr {v w : Int} (h : v % 2 ^ 32 = w % 2 ^ 32) : low32 v = low32 w := by
  rw [low32, low32, Int.bmod_def, Int.bmod_def]
  omega

/-- A 32-bit result is sign-extended: any number with its low 32 bits will do for it. -/
theorem State.wrap_signExtend_low32 (s : State) (w : BitVec 32) {v : Int} (h : (w.toNat : Int) % 2 ^ 32 = v % 2 ^ 32) :
    s.wrap (w.signExtend 64).toNat = s.wrap (low32 v) := by
  rw [← s.wrap_toInt, BitVec.toInt_signExtend_of_le (by decide), BitVec.toInt_eq_toNat_bmod]
  exact congrArg s.wrap (low32_congr h)

theorem State.wrap_sextW_low32 (s : State) (w : Word) {v : Int} (h : (w.toNat : Int) % 2 ^ 32 = v % 2 ^ 32) :
    s.wrap (sextW w).toNat = s.wrap (low32 v) := by
  apply s.wrap_signExtend_low32
  rw [BitVec.toNat_setWidth]
  omega

/-- A word left shift multiplies by 2^n (R123). -/
theorem State.wrap_shiftLeftW (s : State) (r : Reg) (n : Nat) :
    s.wrap (shiftLeftW (s.getX r) n).toNat = s.wrap (low32 (s.ux r * 2 ^ n)) := by
  apply s.wrap_sextW_low32
  rw [BitVec.toNat_shiftLeft, Nat.shiftLeft_eq]
  push_cast
  exact Int.emod_emod_of_dvd _ (by norm_num)

/-- A word logical right shift divides the low 32 bits by 2^n (R135). -/
theorem State.wrap_shiftRightW (s : State) (r : Reg) (n : Nat) :
    s.wrap (shiftRightW (s.getX r) n).toNat = s.wrap (low32 (s.ux r % 2 ^ 32 / 2 ^ n)) := by
  apply s.wrap_signExtend_low32
  rw [BitVec.toNat_ushiftRight, Nat.shiftRight_eq_div_pow, BitVec.toNat_setWidth]
  push_cast
  rfl

/-- A word arithmetic right shift divides the signed low word by 2^n, rounding down (R131); the quotient fits in
32 bits again. -/
theorem State.wrap_shiftRightArithW (s : State) (r : Reg) (n : Nat) :
    s.wrap (shiftRightArithW (s.getX r) n).toNat = s.wrap (low32 (s.ux r) / 2 ^ n) := by
  rw [← s.wrap_toInt, shiftRightArithW, BitVec.toInt_signExtend_of_le (by decide), BitVec.toInt_sshiftRight,
    BitVec.toInt_setWidth, Int.shiftRight_eq_div_pow]
  push_cast
  rfl

/-- Settles O15: sums and differences agree in the low 32 bits with those of the containers, and the word shifts
work on the low word. -/
theorem wordArithmeticResults : Obligations.WordArithmeticResults := by
  unfold Obligations.WordArithmeticResults
  intro s rd rs1 rs2 imm shamt n
  refine ⟨State.computes_of_putX rfl (s.wrap_sextW_low32 _ ?addw),
    State.computes_of_putX rfl (s.wrap_sextW_low32 _ ?addiw),
    State.computes_of_putX rfl (s.wrap_sextW_low32 _ ?subw),
    State.computes_of_putX rfl (s.wrap_shiftLeftW rs1 n),
    State.computes_of_putX rfl (s.wrap_shiftLeftW rs1 shamt.toNat),
    State.computes_of_putX rfl (s.wrap_shiftRightW rs1 n),
    State.computes_of_putX rfl (s.wrap_shiftRightW rs1 shamt.toNat),
    State.computes_of_putX rfl (s.wrap_shiftRightArithW rs1 n),
    State.computes_of_putX rfl (s.wrap_shiftRightArithW rs1 shamt.toNat)⟩
  case addw => rw [BitVec.toNat_add, State.ux, State.ux]; omega
  case addiw =>
    rw [BitVec.toNat_add, ← imm12_toInt, BitVec.toInt_eq_toNat_cond, State.ux]
    split <;> omega
  case subw => rw [BitVec.toNat_sub, State.ux, State.ux]; omega

end Sys2Proof.Machine
end

section
/-! The words written out from the spec's encodings (R105, R106). -/

namespace Sys2Proof

/-- A word that is an instruction's own decodes to it, where the configuration has the instruction (R83). -/
theorem decode_of_eq_encode {c : Config} {w : BitVec 32} {i : Instr} (hw : w = encode i)
    (hi : i.wellFormed c = true) : decode c w = .instr i := by
  obtain ⟨hx, ok⟩ := Bool.and_eq_true_iff.1 hi
  rw [hw]
  exact decodeUndoesEncode c i hx ok

/-- Settles O3: each listed word is its instruction's own, the word of zeros is a parcel whose operands R84 bars,
and the word of ones is of no opcode. -/
theorem decodeKnownWords : Obligations.DecodeKnownWords := by
  unfold Obligations.DecodeKnownWords
  have zeros : decode Config.default 0x00000000#32 = .badOperands (.cAddi4spn 0 0) := by decide
  have ones : decode Config.default 0xFFFFFFFF#32 = .unlisted := by decide
  refine ⟨decode_of_eq_encode ?_ ?_, decode_of_eq_encode ?_ ?_, decode_of_eq_encode ?_ ?_,
    decode_of_eq_encode ?_ ?_, decode_of_eq_encode ?_ ?_, decode_of_eq_encode ?_ ?_, decode_of_eq_encode ?_ ?_,
    fun i => by rw [zeros]; nofun, fun i => by rw [ones]; nofun⟩
  all_goals decide

end Sys2Proof
end

section
/-! The branches and jumps to aligned targets (R140 to R148): each instruction is a `branch` or a `jump`, so what is
left to say of it is its condition and the number of its target. -/

namespace Sys2Proof.Machine

open Sys2Proof

/-! ## Retiring at a target -/

/-- A register write and a retirement at a target, by their numbers modulo 2^XLEN. -/
theorem WroteX.of_setX_retireAt {s : State} {rd : Reg} {v target : Word} {n m : Int}
    (hv : s.wrap v.toNat = s.wrap n) (ht : target.toNat = s.wrap m) :
    WroteX s ((s.setX rd v).retireAt target) rd n m :=
  (WroteX.of_setX s rd v target (ht ▸ s.wrap_lt m)).congr hv (by rw [ht, s.wrap_wrap])

/-- A retirement at a target that writes no register, by its number modulo 2^XLEN. -/
theorem WroteX.of_retireAt {s : State} {target : Word} {m : Int} (ht : target.toNat = s.wrap m) :
    WroteX s (s.retireAt target) 0 0 m :=
  (s.retireAt_goesTo target (ht ▸ s.wrap_lt m)).congr rfl (by rw [ht, s.wrap_wrap])

/-- The instruction after one of 4 bytes (R23, R411). -/
theorem State.pcPlus_four (s : State) : (s.pcPlus 4).toNat = s.wrap (s.pc.toNat + 4) := s.pcPlus_toNat 4

/-! ## Branches (R140 to R146) -/

/-- An instruction that means a `branch` on the test of a condition branches on that condition (R140). -/
theorem State.branches_of_branch {i : Instr} {s : State} {b : Bool} {taken : Prop} [Decidable taken]
    {imm : BitVec 12} (hi : exec i s = s.branch b (branchOffset imm)) (hb : b = decide taken) :
    Branches i s taken (s.pc.toNat + 2 * imm.toInt) := by
  have htarget : (s.pcPlus (branchOffset imm)).toNat = s.wrap (s.pc.toNat + 2 * imm.toInt) :=
    s.pcPlus_doubled imm (by decide)
  constructor
  · intro holds aligned
    rw [← htarget] at aligned
    rw [hb, decide_eq_true holds, s.branch_taken _ aligned] at hi
    exact ⟨_, hi, .of_retireAt htarget⟩
  · intro fails
    rw [hb, decide_eq_false fails, s.branch_not_taken] at hi
    exact ⟨_, hi, .of_retireAt s.pcPlus_four⟩

/-- The test of `bne` (R146). -/
theorem State.getX_bne (s : State) (r q : Reg) : (s.getX r != s.getX q) = decide (s.ux r ≠ s.ux q) := by
  rw [bne, s.getX_beq, ← decide_not]

/-- The test of `bge` (R142). -/
theorem State.not_ltSigned_getX (s : State) (r q : Reg) :
    (!ltSigned s.cfg.xlen (s.getX r) (s.getX q)) = decide (s.sx q ≤ s.sx r) := by
  rw [s.ltSigned_getX, ← decide_not, decide_eq_decide, not_lt]

/-- The test of `bgeu` (R143). -/
theorem State.not_ltUnsigned_getX (s : State) (r q : Reg) :
    (!ltUnsigned s.cfg.xlen (s.getX r) (s.getX q)) = decide (s.ux q ≤ s.ux r) := by
  rw [s.ltUnsigned_getX, ← decide_not, decide_eq_decide, not_lt]

/-! ## Jumps (R147, R148) -/

/-- An instruction that means a `jump` to an aligned target goes there and links to the next instruction (R140). -/
theorem State.links_of_jump {i : Instr} {s : State} {rd : Reg} {target : Word} {m : Int}
    (hi : exec i s = s.jump rd target) (ht : target.toNat = s.wrap m)
    (aligned : s.wrap m % s.cfg.ialignBytes = 0) :
    ∃ t, exec i s = .next t ∧ WroteX s t rd (s.pc.toNat + 4) m := by
  rw [← ht] at aligned
  rw [s.jump_aligned rd target aligned] at hi
  have hlink : s.wrap (s.pcPlus 4).toNat = s.wrap (s.pc.toNat + 4) := by rw [s.pcPlus_four, s.wrap_wrap]
  exact ⟨_, hi, .of_setX_retireAt hlink ht⟩

/-- The target of `jalr` is an XLEN-bit number (R148). -/
theorem State.wrap_jalrTarget (s : State) (rs1 : Reg) (imm : BitVec 12) :
    (clearBit0 (s.addrPlus rs1 (imm12 imm))).toNat = s.wrap (s.dataAddress rs1 imm.toInt / 2 * 2 : Nat) := by
  have hlt : s.dataAddress rs1 imm.toInt / 2 * 2 < s.modulus :=
    lt_of_le_of_lt (Nat.div_mul_le_self _ 2) (s.dataAddress_lt rs1 _)
  rw [s.jalrTarget_toNat, s.wrap_natCast, Nat.mod_eq_of_lt hlt]

/-- Settles O18: each branch by what its test decides, each jump by the number of its target. -/
theorem branchAndJumpResults : Obligations.BranchAndJumpResults := by
  unfold Obligations.BranchAndJumpResults
  intro s rd rs1 rs2 off imm
  exact ⟨State.branches_of_branch rfl (s.getX_beq rs1 rs2), State.branches_of_branch rfl (s.getX_bne rs1 rs2),
    State.branches_of_branch rfl (s.ltSigned_getX rs1 rs2), State.branches_of_branch rfl (s.not_ltSigned_getX rs1 rs2),
    State.branches_of_branch rfl (s.ltUnsigned_getX rs1 rs2),
    State.branches_of_branch rfl (s.not_ltUnsigned_getX rs1 rs2),
    State.links_of_jump rfl (s.pcPlus_doubled off (by decide)), State.links_of_jump rfl (s.wrap_jalrTarget rs1 imm)⟩

end Sys2Proof.Machine
end

section
/-! The instructions that always trap (R170, R171, R305), and the privileged instructions in the modes that may not
execute them (R163). -/

namespace Sys2Proof.Machine

open Sys2Proof

/-- An instruction whose whole meaning is to raise an exception with trap value 0. -/
theorem State.traps_of_raise {i : Instr} {s : State} {e : Exc} (hs : AtInstruction s)
    (hi : exec i s = s.commit (.raise e 0)) : Traps i s e.code 0 := by
  obtain ⟨t, ht, htrapped⟩ := s.commit_raise_trapped e 0 hs s.modulus_pos
  exact ⟨t, hi.trans ht, htrapped⟩

/-- A privileged instruction where the mode may not execute it (R163). -/
theorem State.traps_of_privileged {i : Instr} {s t : State} {allowed : Bool} (hs : AtInstruction s)
    (hi : exec i s = s.privileged i allowed t) (h : allowed = false) : Traps i s 2 (s.illegalValue i) := by
  subst h
  obtain ⟨u, hu, htrapped⟩ := s.illegal_traps hs i
  exact ⟨u, hi.trans hu, htrapped⟩

/-- The mode may not execute what is left to M-mode, and to S-mode where the trap bit is clear: `sret` with TSR,
`sfence.vma` with TVM (R163). -/
theorem Priv.supervisorAllowed_eq_false {p : Priv} {trapBit : Bool} (h : p = .u ∨ (p = .s ∧ trapBit = true)) :
    (p == .m || (p == .s && !trapBit)) = false := by
  rcases h with rfl | ⟨rfl, rfl⟩ <;> rfl

/-- The mode may not execute `wfi`: below M with TW, or in U where S exists (R163). -/
theorem Priv.wfiAllowed_eq_false {p : Priv} {hasS tw : Bool} (hm : p ≠ .m)
    (h : tw = true ∨ (p = .u ∧ hasS = true)) : (p == .m || (!(p == .u && hasS) && !tw)) = false := by
  rw [beq_eq_false_iff_ne.2 hm, Bool.false_or]
  rcases h with rfl | ⟨rfl, rfl⟩
  · exact Bool.and_false _
  · rfl

/-- Settles O39: three instructions raise their exception and nothing else; each privileged one is barred by the
condition R163's table gives it. -/
theorem environmentAndPrivilegedInstructionsTrap : Obligations.EnvironmentAndPrivilegedInstructionsTrap := by
  unfold Obligations.EnvironmentAndPrivilegedInstructionsTrap
  intro s hs
  have hbreak {i : Instr} (hi : exec i s = s.commit (.raise .breakpoint 0)) : Traps i s 3 0 :=
    State.traps_of_raise hs hi
  refine ⟨?_, hbreak rfl, hbreak rfl,
    fun rs1 rs2 => ⟨fun hm => ?_, fun h => ?_, fun h => ?_, fun hm h => ?_⟩⟩
  · have hcall : Traps .ecall s (ecallExc s.priv).code 0 := State.traps_of_raise hs rfl
    cases hp : s.priv with
    | u | s | m =>
      rw [hp] at hcall
      exact hcall
  · exact State.traps_of_privileged hs rfl (beq_eq_false_iff_ne.2 hm)
  · exact State.traps_of_privileged hs rfl (Priv.supervisorAllowed_eq_false h)
  · exact State.traps_of_privileged hs rfl (Priv.supervisorAllowed_eq_false h)
  · exact State.traps_of_privileged hs rfl (Priv.wfiAllowed_eq_false hm h)

end Sys2Proof.Machine
end

section
/-! The multiplications and divisions (R178 to R193): every one of them is a `putX` of a function of its operands'
views, so what is left to say is the number that each view reads and the number of the word that is put. -/

namespace Sys2Proof.Machine

open Sys2Proof

/-! ## Products (R185 to R189) -/

theorem State.wrap_mul (s : State) (a b : Word) : s.wrap (a * b).toNat = s.wrap (a.toNat * b.toNat) := by
  apply s.wrap_congr
  rw [BitVec.toNat_mul]
  push_cast
  exact Int.emod_emod_of_dvd _ dvd_rfl

/-- The upper half of a product is its quotient by 2^XLEN, rounded down (R178). -/
theorem State.wrap_highHalf (s : State) (product : Int) :
    s.wrap (highHalf s.cfg.xlen product).toNat = s.wrap (product / s.modulus) := by
  rw [highHalf, s.wrap_ofInt, State.modulus]
  push_cast
  rfl

/-- The low word of a product is that of the exact product (R189). -/
theorem State.wrap_sextW_mul (s : State) (a b : Word) :
    s.wrap (sextW (a * b)).toNat = s.wrap (low32 (a.toNat * b.toNat)) := by
  apply s.wrap_sextW_low32
  rw [BitVec.toNat_mul]
  push_cast
  exact Int.emod_emod_of_dvd _ (by norm_num)

/-- Settles O16: `mul` and `mulw` keep the low bits of the exact product, and the other three its upper half, each
of the operands' numbers under its own views. -/
theorem multiplyResults : Obligations.MultiplyResults := by
  unfold Obligations.MultiplyResults
  intro s rd rs1 rs2
  refine ⟨State.computes_of_putX rfl (s.wrap_mul _ _), State.computes_of_putX rfl ?mulh,
    State.computes_of_putX rfl ?mulhsu, State.computes_of_putX rfl ?mulhu,
    State.computes_of_putX rfl (s.wrap_sextW_mul _ _)⟩
  case mulh => rw [s.wrap_highHalf, s.signedView_getX, s.signedView_getX]
  case mulhsu => rw [s.wrap_highHalf, s.signedView_getX, s.unsignedView_getX]
  case mulhu => rw [s.wrap_highHalf, s.unsignedView_getX, s.unsignedView_getX]

/-! ## Quotients and remainders (R181 to R184, R190 to R193) -/

/-- The signed view of a register's low word. -/
theorem State.signedViewW_getX (s : State) (r : Reg) : signedViewW (s.getX r) = low32 (s.ux r) :=
  BitVec.toInt_setWidth _

/-- The unsigned view of a register's low word. -/
theorem State.unsignedViewW_getX (s : State) (r : Reg) : unsignedViewW (s.getX r) = s.ux r % 2 ^ 32 := by
  rw [unsignedViewW, BitVec.toNat_setWidth]
  push_cast
  rfl

theorem State.wrap_ofNumber (s : State) (v : Int) : s.wrap (ofNumber v).toNat = s.wrap v := s.wrap_ofInt v

/-- The low word of a number put in a container, sign-extended. -/
theorem State.wrap_sextW_ofNumber (s : State) (v : Int) : s.wrap (sextW (ofNumber v)).toNat = s.wrap (low32 v) := by
  apply s.wrap_sextW_low32
  rw [ofNumber, BitVec.toNat_ofInt]
  omega

section
variable {i : Instr} {s : State} {rd rs1 rs2 : Reg} {len : Nat} {op : Int → Int → Int}

/-- An operation on the operands' two's complement numbers: `div`, `rem`. -/
theorem State.computes_signed
    (hi : exec i s = s.putX rd
      (ofNumber (op (signedView s.cfg.xlen (s.getX rs1)) (signedView s.cfg.xlen (s.getX rs2)))) len) :
    Computes i s rd (op (s.sx rs1) (s.sx rs2)) len := by
  rw [s.signedView_getX, s.signedView_getX] at hi
  exact State.computes_of_putX hi (s.wrap_ofNumber _)

/-- An operation on the operands' unsigned numbers: `divu`, `remu`. -/
theorem State.computes_unsigned
    (hi : exec i s = s.putX rd
      (ofNumber (op (unsignedView s.cfg.xlen (s.getX rs1)) (unsignedView s.cfg.xlen (s.getX rs2)))) len) :
    Computes i s rd (op (s.ux rs1) (s.ux rs2)) len := by
  rw [s.unsignedView_getX, s.unsignedView_getX] at hi
  exact State.computes_of_putX hi (s.wrap_ofNumber _)

/-- An operation on the low words' two's complement numbers, its result cut to a word: `divw`, `remw`. -/
theorem State.computes_signedW
    (hi : exec i s = s.putX rd (sextW (ofNumber (op (signedViewW (s.getX rs1)) (signedViewW (s.getX rs2))))) len) :
    Computes i s rd (low32 (op (low32 (s.ux rs1)) (low32 (s.ux rs2)))) len := by
  rw [s.signedViewW_getX, s.signedViewW_getX] at hi
  exact State.computes_of_putX hi (s.wrap_sextW_ofNumber _)

/-- An operation on the low words' unsigned numbers, its result cut to a word: `divuw`, `remuw`. -/
theorem State.computes_unsignedW
    (hi : exec i s = s.putX rd
      (sextW (ofNumber (op (unsignedViewW (s.getX rs1)) (unsignedViewW (s.getX rs2))))) len) :
    Computes i s rd (low32 (op (s.ux rs1 % 2 ^ 32) (s.ux rs2 % 2 ^ 32))) len := by
  rw [s.unsignedViewW_getX, s.unsignedViewW_getX] at hi
  exact State.computes_of_putX hi (s.wrap_sextW_ofNumber _)

end

/-- Settles O17: a quotient and a remainder of one kind read their operands alike, and the corners are those of
`divSigned` and its companions whatever the numbers. -/
theorem divideResults : Obligations.DivideResults := by
  unfold Obligations.DivideResults
  intro s rd rs1 rs2 d signedDiv signedRem unsignedDiv unsignedRem n word uword
  exact ⟨State.computes_signed (op := divSigned d n) rfl, State.computes_signed (op := remSigned d n) rfl,
    State.computes_unsigned (op := divUnsigned d) rfl, State.computes_unsigned (op := remUnsigned d) rfl,
    State.computes_signedW (op := divSigned d 32) rfl, State.computes_signedW (op := remSigned d 32) rfl,
    State.computes_unsignedW (op := divUnsigned d) rfl, State.computes_unsignedW (op := remUnsigned d) rfl⟩

end Sys2Proof.Machine
end

section
/-! The floating-point instructions by their shapes (R221, R222): what each computes where floating point is on, and
that each is illegal where it is off or its rounding mode is reserved. -/

namespace Sys2Proof.Machine

open Sys2Proof

/-! ## Shapes that run -/

/-- A single-precision result in its register, boxed (R27). -/
theorem State.putS_wroteF (s : State) (rd : Reg) (r : FpResult) :
    WroteF s ((s.putS rd r).retire 4) rd (s.boxed (r.1 % 2 ^ 32)) r.2 4 := by
  have hbox := s.boxed_toNat (BitVec.ofNat 32 r.1)
  rw [BitVec.toNat_ofNat] at hbox
  exact hbox ▸ WroteF.of_setF s rd _ r.2 4 (by decide)

/-- A double-precision result in its register (R26). -/
theorem State.putD_wroteF (s : State) (rd : Reg) (r : FpResult) (hd : s.cfg.extD = true) :
    WroteF s ((s.putD rd r).retire 4) rd (r.1 % 2 ^ 64) r.2 4 := by
  have hdone := WroteF.of_setF s rd (BitVec.ofNat 64 r.1) r.2 4 (by decide)
  rwa [if_pos (show s.cfg.flen64 = true from hd), BitVec.toNat_ofNat] at hdone

section
variable {i : Instr} {s : State} {rd : Reg} {rm : BitVec 3} {mode : Rounding}

theorem State.computesS_of_fpS {op : Rounding → FpResult} {r : FpResult} (h : FpReady s rm mode)
    (hi : exec i s = s.fpS i rd rm op) (hr : op mode = r) : ComputesS i s rd r :=
  ⟨_, hi.trans (s.fpS_ready i rd rm mode op h), hr ▸ s.putS_wroteF rd _⟩

theorem State.computesD_of_fpD {op : Rounding → FpResult} {r : FpResult} (hd : s.cfg.extD = true)
    (h : FpReady s rm mode) (hi : exec i s = s.fpD i rd rm op) (hr : op mode = r) : ComputesD i s rd r :=
  ⟨_, hi.trans (s.fpD_ready i rd rm mode op h), hr ▸ s.putD_wroteF rd _ hd⟩

theorem State.computesS_of_fpExactS {r r' : FpResult} (h : s.mstatus.fs ≠ 0) (hi : exec i s = s.fpExactS i rd r)
    (hr : r = r') : ComputesS i s rd r' :=
  ⟨_, hi.trans (s.fpExactS_on i rd r h), hr ▸ s.putS_wroteF rd r⟩

theorem State.computesD_of_fpExactD {r r' : FpResult} (hd : s.cfg.extD = true) (h : s.mstatus.fs ≠ 0)
    (hi : exec i s = s.fpExactD i rd r) (hr : r = r') : ComputesD i s rd r' :=
  ⟨_, hi.trans (s.fpExactD_on i rd r h), hr ▸ s.putD_wroteF rd r hd⟩

theorem State.computesXF_of_fpX {v : Word} {n : Int} {fl : FpFlags} (h : s.mstatus.fs ≠ 0)
    (hi : exec i s = s.fpX i rd v fl) (hv : s.wrap v.toNat = s.wrap n) : ComputesXF i s rd n fl :=
  ⟨_, hi.trans (s.fpX_on i rd v fl h), (WroteXFlags.of_setX s rd v fl).congr hv⟩

theorem State.computesXF_of_fpToX {t : IntType} {op : Rounding → Int × FpFlags} {r : Int × FpFlags} {n : Int}
    (h : FpReady s rm mode) (hi : exec i s = s.fpToX i rd rm t op) (hr : op mode = r)
    (hv : s.wrap (t.toWord r.1).toNat = s.wrap n) : ComputesXF i s rd n r.2 := by
  subst hr
  exact ⟨_, hi.trans (s.fpToX_ready i rd rm mode t op h), (WroteXFlags.of_setX s rd _ _).congr hv⟩

end

/-! ## Arithmetic (R225) -/

/-- Settles O44: each instruction is a rounded single-precision result of its own function. -/
theorem singleArithmeticResults : Obligations.SingleArithmeticResults := by
  unfold Obligations.SingleArithmeticResults
  intro s rd rs1 rs2 rs3 rm mode h a b c
  exact ⟨State.computesS_of_fpS h rfl rfl, State.computesS_of_fpS h rfl rfl, State.computesS_of_fpS h rfl rfl,
    State.computesS_of_fpS h rfl rfl, State.computesS_of_fpS h rfl rfl, State.computesS_of_fpS h rfl rfl,
    State.computesS_of_fpS h rfl rfl, State.computesS_of_fpS h rfl rfl, State.computesS_of_fpS h rfl rfl⟩

/-- Settles O45: each instruction is a rounded double-precision result of its own function. -/
theorem doubleArithmeticResults : Obligations.DoubleArithmeticResults := by
  unfold Obligations.DoubleArithmeticResults
  intro s rd rs1 rs2 rs3 rm mode hd h a b c
  exact ⟨State.computesD_of_fpD hd h rfl rfl, State.computesD_of_fpD hd h rfl rfl, State.computesD_of_fpD hd h rfl rfl,
    State.computesD_of_fpD hd h rfl rfl, State.computesD_of_fpD hd h rfl rfl, State.computesD_of_fpD hd h rfl rfl,
    State.computesD_of_fpD hd h rfl rfl, State.computesD_of_fpD hd h rfl rfl, State.computesD_of_fpD hd h rfl rfl⟩

/-! ## Conversions (R229) -/

/-- The number in a signed register operand is the two's complement number of its low bits. -/
theorem IntType.read_signed {bits : Nat} (hb : 0 < bits) (v : Word) :
    (IntType.mk bits true).read v = (v.toNat : Int).bmod (2 ^ bits) := by
  obtain ⟨k, rfl⟩ := Nat.exists_eq_succ_of_ne_zero hb.ne'
  have half : ((2 ^ (k + 1) : Nat) + 1 : Int) / 2 = 2 ^ k := by
    push_cast
    omega
  unfold IntType.read
  rw [Int.bmod_def, half]
  push_cast
  simp only [Nat.succ_eq_add_one, true_and]
  split <;> split <;> omega

theorem IntType.read_unsigned (bits : Nat) (v : Word) :
    (IntType.mk bits false).read v = (v.toNat : Int) % 2 ^ bits := by
  simp [IntType.read]

theorem State.intW_read (s : State) (r : Reg) : intW.read (s.getX r) = low32 (s.ux r) :=
  IntType.read_signed (by decide) _

theorem State.intL_read (s : State) (r : Reg) : intL.read (s.getX r) = signedBytes 8 (s.ux r) :=
  IntType.read_signed (by decide) _

theorem State.intWU_read (s : State) (r : Reg) : intWU.read (s.getX r) = s.ux r % 2 ^ 32 :=
  IntType.read_unsigned 32 _

theorem State.intLU_read (s : State) (r : Reg) : intLU.read (s.getX r) = s.ux r := by
  have hlt := (s.getX r).isLt
  rw [intLU, IntType.read_unsigned, State.ux]
  omega

/-- Settles O46: each conversion is a rounded result of the number its integer type reads. -/
theorem conversionsToFloat : Obligations.ConversionsToFloat := by
  unfold Obligations.ConversionsToFloat
  intro s rd rs1 rm mode h w wu l lu
  have hw : intW.read (s.getX rs1) = w := s.intW_read rs1
  have hwu : intWU.read (s.getX rs1) = wu := s.intWU_read rs1
  have hl : intL.read (s.getX rs1) = l := s.intL_read rs1
  have hlu : intLU.read (s.getX rs1) = lu := s.intLU_read rs1
  exact ⟨State.computesS_of_fpS h rfl (congrArg (binary32.ofInt · mode) hw),
    State.computesS_of_fpS h rfl (congrArg (binary32.ofInt · mode) hwu),
    State.computesS_of_fpS h rfl (congrArg (binary32.ofInt · mode) hl),
    State.computesS_of_fpS h rfl (congrArg (binary32.ofInt · mode) hlu), fun hd =>
      ⟨State.computesS_of_fpS h rfl rfl, State.computesD_of_fpD hd h rfl rfl,
      State.computesD_of_fpD hd h rfl (congrArg (binary64.ofInt · mode) hw),
      State.computesD_of_fpD hd h rfl (congrArg (binary64.ofInt · mode) hwu),
      State.computesD_of_fpD hd h rfl (congrArg (binary64.ofInt · mode) hl),
      State.computesD_of_fpD hd h rfl (congrArg (binary64.ofInt · mode) hlu)⟩⟩

/-- A 32-bit integer result is sign-extended, whether or not it is signed. -/
theorem State.wrap_toWord_32 (s : State) (signed : Bool) (n : Int) :
    s.wrap ((IntType.mk 32 signed).toWord n).toNat = s.wrap (low32 n) :=
  s.wrap_sextW_ofNumber n

theorem State.wrap_toWord_64 (s : State) (signed : Bool) (n : Int) :
    s.wrap ((IntType.mk 64 signed).toWord n).toNat = s.wrap n :=
  s.wrap_ofInt n

/-- Settles O47: each conversion is a rounded integer, in a register of its type's width. -/
theorem conversionsToInteger : Obligations.ConversionsToInteger := by
  unfold Obligations.ConversionsToInteger
  intro s rd rs1 rm mode h fromS fromD
  exact ⟨State.computesXF_of_fpToX h rfl rfl (s.wrap_toWord_32 true _),
    State.computesXF_of_fpToX h rfl rfl (s.wrap_toWord_32 false _),
    State.computesXF_of_fpToX h rfl rfl (s.wrap_toWord_64 true _),
    State.computesXF_of_fpToX h rfl rfl (s.wrap_toWord_64 false _),
    State.computesXF_of_fpToX h rfl rfl (s.wrap_toWord_32 true _),
    State.computesXF_of_fpToX h rfl rfl (s.wrap_toWord_32 false _),
    State.computesXF_of_fpToX h rfl rfl (s.wrap_toWord_64 true _),
    State.computesXF_of_fpToX h rfl rfl (s.wrap_toWord_64 false _)⟩

/-! ## Results that are not rounded (R224, R226 to R228) -/

/-- A sign bit of value `n` put on the magnitude bits of a number. -/
theorem Format.inject_eq {F : Format} {neg : Bool} {n : Nat} (h : neg.toNat = n) (a : Nat) :
    F.inject neg a = n * F.signBit + a % F.signBit := by
  subst h
  cases neg <;> simp [Format.inject, Format.withSign, Format.magnitude]

/-- The sign of a number within its format's width is its top bit. -/
theorem Format.toNat_sign {F : Format} {a : Nat} (h : a < 2 * F.signBit) : (F.sign a).toNat = a / F.signBit := by
  have hlt : a / F.signBit < 2 := Nat.div_lt_of_lt_mul (by rwa [Nat.mul_comm])
  unfold Format.sign
  interval_cases a / F.signBit <;> rfl

section
variable {F : Format} {a b : Nat} (hb : b < 2 * F.signBit)
include hb

/-- `fsgnj` (R255, R288). -/
theorem Format.inject_sign : F.inject (F.sign b) a = b / F.signBit * F.signBit + a % F.signBit :=
  Format.inject_eq (Format.toNat_sign hb) a

/-- `fsgnjn` (R256, R289). -/
theorem Format.inject_not_sign : F.inject (!F.sign b) a = (1 - b / F.signBit) * F.signBit + a % F.signBit := by
  refine Format.inject_eq ?_ a
  rw [← Format.toNat_sign hb]
  cases F.sign b <;> rfl

/-- `fsgnjx` (R257, R290). -/
theorem Format.inject_xor_sign (ha : a < 2 * F.signBit) :
    F.inject (F.sign a != F.sign b) a = (a / F.signBit + b / F.signBit) % 2 * F.signBit + a % F.signBit := by
  refine Format.inject_eq ?_ a
  rw [← Format.toNat_sign ha, ← Format.toNat_sign hb]
  cases F.sign a <;> cases F.sign b <;> rfl

end

theorem State.bitsS_lt (s : State) (r : Reg) : s.bitsS r < 2 * binary32.signBit := (s.getS r).isLt

theorem State.bitsD_lt (s : State) (r : Reg) : s.bitsD r < 2 * binary64.signBit := (s.getF r).isLt

/-- Settles O48: a sign injection by its sign bit, the others by their own functions; what is put in a
single-precision register is a number modulo 2^32. -/
theorem signInjectionMinMaxMoves : Obligations.SignInjectionMinMaxMoves := by
  unfold Obligations.SignInjectionMinMaxMoves
  intro s rd rs1 rs2 h a b p q
  have ha : a < 2 * binary32.signBit := s.bitsS_lt rs1
  have hb : b < 2 * binary32.signBit := s.bitsS_lt rs2
  have hp : p < 2 * binary64.signBit := s.bitsD_lt rs1
  have hq : q < 2 * binary64.signBit := s.bitsD_lt rs2
  exact ⟨State.computesS_of_fpExactS h rfl (congrArg exactly (Format.inject_sign hb)),
    State.computesS_of_fpExactS h rfl (congrArg exactly (Format.inject_not_sign hb)),
    State.computesS_of_fpExactS h rfl (congrArg exactly (Format.inject_xor_sign hb ha)),
    State.computesS_of_fpExactS h rfl rfl, State.computesS_of_fpExactS h rfl rfl,
    State.computesS_of_fpExactS h rfl (congrArg exactly (BitVec.toNat_setWidth 32 _)), fun hd =>
      ⟨State.computesD_of_fpExactD hd h rfl (congrArg exactly (Format.inject_sign hq)),
      State.computesD_of_fpExactD hd h rfl (congrArg exactly (Format.inject_not_sign hq)),
      State.computesD_of_fpExactD hd h rfl (congrArg exactly (Format.inject_xor_sign hq hp)),
      State.computesD_of_fpExactD hd h rfl rfl, State.computesD_of_fpExactD hd h rfl rfl,
      State.computesD_of_fpExactD hd h rfl rfl⟩⟩

theorem State.wrap_ofNat (s : State) (n : Nat) : s.wrap (BitVec.ofNat 64 n).toNat = s.wrap n := by
  apply s.wrap_congr
  rw [BitVec.toNat_ofNat]
  omega

/-- Settles O49: each is an integer result with its own flags. -/
theorem compareClassifyMovesToInteger : Obligations.CompareClassifyMovesToInteger := by
  unfold Obligations.CompareClassifyMovesToInteger
  intro s rd rs1 rs2 h a b p q
  exact ⟨State.computesXF_of_fpX h rfl (s.wrap_ofNat _), State.computesXF_of_fpX h rfl (s.wrap_ofNat _),
    State.computesXF_of_fpX h rfl (s.wrap_ofNat _), State.computesXF_of_fpX h rfl (s.wrap_ofNat _),
    State.computesXF_of_fpX h rfl (s.wrap_sextW_low32 _ rfl), State.computesXF_of_fpX h rfl (s.wrap_ofNat _),
    State.computesXF_of_fpX h rfl (s.wrap_ofNat _), State.computesXF_of_fpX h rfl (s.wrap_ofNat _),
    State.computesXF_of_fpX h rfl (s.wrap_ofNat _), State.computesXF_of_fpX h rfl rfl⟩

/-! ## Shapes that are illegal (R221, R222) -/

/-- With floating point off, every floating-point instruction is illegal, by the check its shape begins with. -/
theorem exec_fpOff {i : Instr} {s : State} (hf : i.usesFp = true) (hs : s.mstatus.fs = 0) :
    exec i s = s.commit (s.illegal i) := by
  cases i with
  | faddS | fsubS | fmulS | fdivS | fsqrtS | fmaddS | fmsubS | fnmsubS | fnmaddS | fcvtSW | fcvtSWu | fcvtSL | fcvtSLu
  | fcvtSD | faddD | fsubD | fmulD | fdivD | fsqrtD | fmaddD | fmsubD | fnmsubD | fnmaddD | fcvtDW | fcvtDWu | fcvtDL
  | fcvtDLu | fcvtDS | fsgnjS | fsgnjnS | fsgnjxS | fminS | fmaxS | fmvWX | fsgnjD | fsgnjnD | fsgnjxD | fminD | fmaxD
  | fmvDX | feqS | fltS | fleS | fclassS | feqD | fltD | fleD | fclassD | fmvXW | fmvXD | fcvtWS | fcvtWuS | fcvtLS
  | fcvtLuS | fcvtWD | fcvtWuD | fcvtLD | fcvtLuD | flw | cFlw | cFlwsp | fld | cFld | cFldsp | fsw | fsd | cFsw | cFsd
  | cFswsp | cFsdsp => exact congrArg s.commit (s.fpCheck_off _ _ hs)
  | _ => cases hf

/-- With a reserved rounding mode, every instruction that rounds is illegal, whatever FS is. -/
theorem exec_roundingReserved {i : Instr} {s : State} {rm : BitVec 3} (hi : i.rm? = some rm)
    (h : s.rounding rm = none) : exec i s = s.commit (s.illegal i) := by
  cases i with
  | faddS | fsubS | fmulS | fdivS | fsqrtS | fmaddS | fmsubS | fnmsubS | fnmaddS | fcvtSW | fcvtSWu | fcvtSL | fcvtSLu
  | fcvtSD | faddD | fsubD | fmulD | fdivD | fsqrtD | fmaddD | fmsubD | fnmsubD | fnmaddD | fcvtDW | fcvtDWu | fcvtDL
  | fcvtDLu | fcvtDS | fcvtWS | fcvtWuS | fcvtLS | fcvtLuS | fcvtWD | fcvtWuD | fcvtLD | fcvtLuD =>
    cases hi
    exact congrArg s.commit (s.fpRounded_reserved _ _ _ h)
  | _ => cases hi

/-- The values 5, 6 and 7 name no mode (R222). -/
theorem roundingOf_eq_none {v : BitVec 3} (h : 5 ≤ v.toNat) : roundingOf v = none := by
  revert v
  decide

/-- The reserved rounding modes: 5 and 6, and 7 where `frm` holds none of the five (R222). -/
theorem State.rounding_eq_none {s : State} {rm : BitVec 3} (h : rm = 5 ∨ rm = 6 ∨ (rm = 7 ∧ 5 ≤ s.frm.toNat)) :
    s.rounding rm = none := by
  rcases h with rfl | rfl | ⟨rfl, hfrm⟩
  · rfl
  · rfl
  · exact roundingOf_eq_none hfrm

/-- Settles O51: either check raises before anything else is done. -/
theorem floatingPointOffAndReservedRoundingTrap : Obligations.FloatingPointOffAndReservedRoundingTrap := by
  unfold Obligations.FloatingPointOffAndReservedRoundingTrap
  intro s i hs
  have htraps (hi : exec i s = s.commit (s.illegal i)) : Traps i s 2 (s.illegalValue i) := by
    obtain ⟨t, ht, htrapped⟩ := s.illegal_traps hs i
    exact ⟨t, hi.trans ht, htrapped⟩
  exact ⟨fun hoff huses => htraps (exec_fpOff huses hoff),
    fun rm hrm hreserved => htraps (exec_roundingReserved hrm (State.rounding_eq_none hreserved))⟩

end Sys2Proof.Machine
end

section
/-! Exact magnitudes (R222, R223): what the integer part and the tail say of a quotient and of a square root, and that
rounding by them follows the direction. -/

namespace Sys2Proof.Machine

open Sys2Proof

/-! ## Powers with an integer exponent -/

theorem zpow_eq_div_toNat {b : ℚ} (hb : b ≠ 0) (k : ℤ) : b ^ k = b ^ k.toNat / b ^ (-k).toNat := by
  rw [← zpow_natCast, ← zpow_natCast, ← zpow_sub₀ hb]
  congr 1
  omega

/-- A quotient's exponent moved into its numerator and denominator. -/
theorem quotient_eq_div (num den : Nat) (k : Int) :
    quotient num den k = ((num * 2 ^ k.toNat : Nat) : ℚ) / (den * 2 ^ (-k).toNat : Nat) := by
  unfold quotient
  rw [zpow_eq_div_toNat two_ne_zero]
  push_cast
  rw [div_mul_div_comm]

/-- A quotient in units of `2^q`. -/
theorem quotient_div_zpow (num den : Nat) (exp q : Int) :
    quotient num den exp / 2 ^ q = quotient num den (exp - q) := by
  unfold quotient
  rw [zpow_sub₀ two_ne_zero, mul_div_assoc]

theorem quotient_one (num : Nat) (exp : Int) : quotient num 1 exp = num * 2 ^ exp := by
  simp [quotient]

/-! ## Integer parts and tails -/

/-- A tail says where `x` lies from its integer part `n` on. -/
def Tail.Describes (t : Tail) (n : Nat) (x : ℚ) : Prop :=
  match t with
  | .exact => x = n
  | .below => n < x ∧ x < n + 1 / 2
  | .half => x = n + 1 / 2
  | .above => n + 1 / 2 < x ∧ x < n + 1

/-- The same for a square root, said of the number under it. -/
def Tail.DescribesRoot (t : Tail) (n : Nat) (x : ℚ) : Prop :=
  match t with
  | .exact => x = n ^ 2
  | .below => n ^ 2 < x ∧ 4 * x < (2 * n + 1) ^ 2
  | .half => 4 * x = (2 * n + 1) ^ 2
  | .above => (2 * n + 1) ^ 2 < 4 * x ∧ x < (n + 1) ^ 2

theorem tailOf_describes (n : Nat) {d : Nat} (hd : 0 < d) : (tailOf (n % d) d).Describes (n / d) (n / d) := by
  have hdq : (0 : ℚ) < d := by exact_mod_cast hd
  have hlt : ((n % d : Nat) : ℚ) < d := by exact_mod_cast Nat.mod_lt n hd
  have hx : (n : ℚ) / d = (n / d : Nat) + (n % d : Nat) / d := by
    rw [div_eq_iff hdq.ne', add_mul, div_mul_cancel₀ _ hdq.ne']
    exact_mod_cast (Nat.div_add_mod' n d).symm
  rw [hx]
  unfold tailOf
  split
  · next h => simp [Tail.Describes, h]
  · next h =>
    have hpos : (0 : ℚ) < (n % d : Nat) := by exact_mod_cast Nat.pos_of_ne_zero h
    split
    · next h =>
      have h : 2 * ((n % d : Nat) : ℚ) < d := by exact_mod_cast h
      refine ⟨lt_add_of_pos_right _ (div_pos hpos hdq), add_lt_add_right ?_ _⟩
      rw [div_lt_div_iff₀ hdq two_pos]
      linarith
    · split
      · next h =>
        have h : 2 * ((n % d : Nat) : ℚ) = d := by exact_mod_cast h
        refine congrArg _ ?_
        rw [div_eq_div_iff hdq.ne' two_ne_zero]
        linarith
      · next h₁ h₂ =>
        have h : (d : ℚ) < 2 * (n % d : Nat) := by exact_mod_cast (by omega : d < 2 * (n % d))
        refine ⟨add_lt_add_right ?_ _, add_lt_add_right ((div_lt_one hdq).2 hlt) _⟩
        rw [div_lt_div_iff₀ two_pos hdq]
        linarith

/-- What `truncAt` gives for a quotient. -/
theorem truncAt_quot (num exp q) {den : Nat} (hd : 0 < den) :
    let t := (Magnitude.quot num den exp).truncAt q
    t.2.Describes t.1 (quotient num den (exp - q)) := by
  rw [quotient_eq_div]
  exact tailOf_describes _ (by positivity)

/-! ## The integer square root -/

/-- The bits of the root decided so far leave the root within the weight of the last. -/
theorem isqrtBits_spec (m k r : Nat) (hlo : r * r ≤ m) (hhi : m < (r + 2 ^ k) * (r + 2 ^ k)) :
    isqrtBits m k r * isqrtBits m k r ≤ m ∧ m < (isqrtBits m k r + 1) * (isqrtBits m k r + 1) := by
  induction k generalizing r with
  | zero => exact ⟨hlo, hhi⟩
  | succ k ih =>
    unfold isqrtBits
    split
    · next h =>
      refine ih _ h ?_
      rwa [add_assoc, ← two_mul, ← pow_succ']
    · next h => exact ih _ hlo (not_le.1 h)

theorem isqrt_eq_sqrt (m : Nat) : isqrt m = m.sqrt := by
  have hhi : m < (0 + 2 ^ (m.log2 / 2 + 1)) * (0 + 2 ^ (m.log2 / 2 + 1)) := by
    rw [zero_add, ← pow_add]
    exact lt_of_lt_of_le Nat.lt_log2_self (Nat.pow_le_pow_right two_pos (by omega))
  obtain ⟨hle, hlt⟩ := isqrtBits_spec m _ 0 (by omega) hhi
  exact (Nat.eq_sqrt.2 ⟨hle, hlt⟩)

/-- What `truncAt` gives for a square root. -/
theorem truncAt_root (rad : Nat) (exp q : Int) :
    let t := (Magnitude.root rad exp).truncAt q
    t.2.DescribesRoot t.1 (rad * 4 ^ (exp - q)) := by
  unfold Magnitude.truncAt
  dsimp only
  generalize hn : rad * 4 ^ (exp - q).toNat = n
  generalize hd : 4 ^ (-(exp - q)).toNat = d
  have hd0 : 0 < d := hd ▸ by positivity
  have hdq : (0 : ℚ) < d := by exact_mod_cast hd0
  have hx : (rad : ℚ) * 4 ^ (exp - q) = n / d := by
    rw [zpow_eq_div_toNat four_ne_zero, ← mul_div_assoc, ← hn, ← hd]
    push_cast
    rfl
  rw [hx, isqrt_eq_sqrt]
  generalize hr : (n / d).sqrt = r
  obtain ⟨hle, hlt⟩ := Nat.eq_sqrt.1 hr.symm
  have hle : r * r * d ≤ n := (Nat.le_div_iff_mul_le hd0).1 hle
  have hlt : n < (r + 1) * (r + 1) * d := (Nat.div_lt_iff_lt_mul hd0).1 hlt
  split
  · next h =>
    have h : (r : ℚ) * r * d = n := by exact_mod_cast h
    exact (div_eq_iff hdq.ne').2 (by linarith)
  · next h =>
    have hlo : (r : ℚ) * r * d < n := by exact_mod_cast lt_of_le_of_ne hle h
    split
    · next h =>
      have h : 4 * (n : ℚ) < (2 * r + 1) * (2 * r + 1) * d := by exact_mod_cast h
      refine ⟨(lt_div_iff₀ hdq).2 (by linarith), ?_⟩
      rw [← mul_div_assoc, div_lt_iff₀ hdq]
      linarith
    · split
      · next h =>
        have h : 4 * (n : ℚ) = (2 * r + 1) * (2 * r + 1) * d := by exact_mod_cast h
        change 4 * ((n : ℚ) / d) = (2 * r + 1) ^ 2
        rw [← mul_div_assoc, div_eq_iff hdq.ne']
        linarith
      · next h₁ h₂ =>
        have h : (2 * r + 1) * (2 * r + 1) * (d : ℚ) < 4 * n := by
          exact_mod_cast lt_of_le_of_ne (not_lt.1 h₁) (Ne.symm h₂)
        have hlt : (n : ℚ) < (r + 1) * (r + 1) * d := by exact_mod_cast hlt
        refine ⟨?_, (div_lt_iff₀ hdq).2 (by linarith)⟩
        rw [← mul_div_assoc, lt_div_iff₀ hdq]
        linarith

/-! ## Rounding in a direction (R222, R223 step 1) -/

/-- The integer part with its tail rounds to one of two neighbours, the one the direction says. -/
theorem RoundedTo.of_describes {t : Tail} {n : Nat} {x : ℚ} (h : t.Describes n x) (mode : Rounding) (neg : Bool) :
    RoundedTo mode neg x (if roundsUp mode neg n t then n + 1 else n) := by
  cases t with
  | exact =>
    obtain rfl : x = n := h
    cases mode <;> cases neg <;> simp [RoundedTo, roundsUp]
  | below =>
    obtain ⟨hlo, hhi⟩ := h
    have habs : |x - n| < 1 / 2 := abs_lt.2 ⟨by linarith, by linarith⟩
    cases mode with
    | rne | rmm => exact ⟨habs.le, fun h => absurd h habs.ne⟩
    | rtz => exact ⟨hlo.le, show x < n + 1 by linarith⟩
    | rdn | rup => cases neg <;> simp [RoundedTo, roundsUp] <;> constructor <;> linarith
  | half =>
    obtain rfl : x = n + 1 / 2 := h
    have hdown : |(n : ℚ) + 1 / 2 - n| = 1 / 2 := by norm_num
    have hup : |(n : ℚ) + 1 / 2 - (n + 1 : Nat)| = 1 / 2 := by
      rw [abs_sub_comm]
      push_cast
      norm_num
    cases mode with
    | rne =>
      rcases Nat.mod_two_eq_zero_or_one n with hn | hn
      · simp only [roundsUp, hn]
        exact ⟨hdown.le, fun _ => hn⟩
      · simp only [roundsUp, hn]
        exact ⟨hup.le, fun _ => show (n + 1) % 2 = 0 by omega⟩
    | rmm => exact ⟨hup.le, fun _ => show (n : ℚ) + 1 / 2 < (n + 1 : Nat) by push_cast; linarith⟩
    | rtz => simp [RoundedTo, roundsUp]; linarith
    | rdn | rup => cases neg <;> simp [RoundedTo, roundsUp] <;> linarith
  | above =>
    obtain ⟨hlo, hhi⟩ := h
    have habs : |x - (n + 1 : Nat)| < 1 / 2 := abs_lt.2 ⟨by push_cast; linarith, by push_cast; linarith⟩
    cases mode with
    | rne | rmm => exact ⟨habs.le, fun h => absurd h habs.ne⟩
    | rtz => simp [RoundedTo, roundsUp]; constructor <;> linarith
    | rdn | rup => cases neg <;> simp [RoundedTo, roundsUp] <;> constructor <;> linarith

/-- What a tail says of where the number under the root lies. -/
theorem Tail.DescribesRoot.bounds {t : Tail} {n : Nat} {x : ℚ} (h : t.DescribesRoot n x) :
    (n : ℚ) ^ 2 ≤ x ∧ x < (n + 1) ^ 2 ∧ (t ≠ .exact → (n : ℚ) ^ 2 < x) := by
  have hn : (0 : ℚ) ≤ n := n.cast_nonneg
  cases t with
  | exact =>
    obtain rfl : x = n ^ 2 := h
    exact ⟨le_rfl, by nlinarith, fun h => absurd rfl h⟩
  | below =>
    obtain ⟨hlo, hhi⟩ := h
    exact ⟨hlo.le, by nlinarith, fun _ => hlo⟩
  | half =>
    have h : 4 * x = (2 * n + 1) ^ 2 := h
    exact ⟨by nlinarith, by nlinarith, fun _ => by nlinarith⟩
  | above =>
    obtain ⟨hlo, hhi⟩ := h
    exact ⟨by nlinarith, hhi, fun _ => by nlinarith⟩

/-- There is no tie at the middle below the integer part. -/
theorem middle_below_lt {n : Nat} {x : ℚ} (hlo : (n : ℚ) ^ 2 ≤ x) (hpos : 0 < n) : (2 * n - 1 : ℚ) ^ 2 < 4 * x := by
  have : (1 : ℚ) ≤ n := by exact_mod_cast hpos
  nlinarith

theorem eq_zero_or_middle_below_le {n : Nat} {x : ℚ} (hlo : (n : ℚ) ^ 2 ≤ x) :
    n = 0 ∨ (2 * n - 1 : ℚ) ^ 2 ≤ 4 * x :=
  n.eq_zero_or_pos.imp id fun hpos => (middle_below_lt hlo hpos).le

/-- Up to the middle, the integer part is one of the nearest, the only one before the middle or where it is even. -/
theorem RootRoundedTo.nearest_down {n : Nat} {x : ℚ} (hlo : (n : ℚ) ^ 2 ≤ x) (hhi : 4 * x ≤ (2 * n + 1) ^ 2)
    (htie : 4 * x = (2 * n + 1) ^ 2 → n % 2 = 0) : RootRoundedTo .rne x n :=
  ⟨eq_zero_or_middle_below_le hlo, hhi, htie, fun hpos h => absurd h (middle_below_lt hlo hpos).ne'⟩

theorem RootRoundedTo.nearest_towards {n : Nat} {x : ℚ} (hlo : (n : ℚ) ^ 2 ≤ x) (hhi : 4 * x < (2 * n + 1) ^ 2) :
    RootRoundedTo .rmm x n :=
  ⟨eq_zero_or_middle_below_le hlo, hhi⟩

/-- From the middle on, `n + 1` is one of the nearest, the only one past the middle or where it is even. -/
theorem RootRoundedTo.nearest_up {n : Nat} {x : ℚ} (hlo : (2 * n + 1 : ℚ) ^ 2 ≤ 4 * x) (hhi : x < (n + 1) ^ 2)
    (htie : 4 * x = (2 * n + 1) ^ 2 → (n + 1) % 2 = 0) : RootRoundedTo .rne x (n + 1) := by
  have hn : (0 : ℚ) ≤ n := n.cast_nonneg
  have hmid : (2 * ((n + 1 : Nat) : ℚ) - 1) ^ 2 = (2 * n + 1) ^ 2 := by
    push_cast
    ring
  have htop : 4 * x < (2 * ((n + 1 : Nat) : ℚ) + 1) ^ 2 := by
    push_cast
    nlinarith
  exact ⟨.inr (hmid ▸ hlo), htop.le, fun h => absurd h htop.ne, fun _ h => htie (hmid ▸ h)⟩

theorem RootRoundedTo.nearest_away {n : Nat} {x : ℚ} (hlo : (2 * n + 1 : ℚ) ^ 2 ≤ 4 * x) (hhi : x < (n + 1) ^ 2) :
    RootRoundedTo .rmm x (n + 1) := by
  have hn : (0 : ℚ) ≤ n := n.cast_nonneg
  refine ⟨.inr ?_, ?_⟩ <;> push_cast <;> nlinarith

/-- The same for a square root, whose sign is never negative. -/
theorem RootRoundedTo.of_describes {t : Tail} {n : Nat} {x : ℚ} (h : t.DescribesRoot n x) (mode : Rounding) :
    RootRoundedTo mode x (if roundsUp mode false n t then n + 1 else n) := by
  have hn : (0 : ℚ) ≤ n := n.cast_nonneg
  obtain ⟨hlo, hhi, hstrict⟩ := h.bounds
  have hup (hne : t ≠ .exact) : RootRoundedTo .rup x (n + 1) := by
    refine ⟨by push_cast; exact hhi.le, .inr ?_⟩
    push_cast
    rw [add_sub_cancel_right]
    exact hstrict hne
  cases t with
  | exact =>
    obtain rfl : x = n ^ 2 := h
    have hmid : 4 * (n : ℚ) ^ 2 < (2 * n + 1) ^ 2 := by nlinarith
    cases mode with
    | rne => exact nearest_down hlo hmid.le fun htie => absurd htie hmid.ne
    | rmm => exact nearest_towards hlo hmid
    | rtz | rdn => exact ⟨hlo, hhi⟩
    | rup =>
      refine ⟨le_rfl, n.eq_zero_or_pos.imp id fun hpos => ?_⟩
      have : (1 : ℚ) ≤ n := by exact_mod_cast hpos
      show (n - 1 : ℚ) ^ 2 < n ^ 2
      nlinarith
  | below =>
    cases mode with
    | rne => exact nearest_down hlo h.2.le fun htie => absurd htie h.2.ne
    | rmm => exact nearest_towards hlo h.2
    | rtz | rdn => exact ⟨hlo, hhi⟩
    | rup => exact hup nofun
  | half =>
    have h : 4 * x = (2 * n + 1) ^ 2 := h
    cases mode with
    | rne =>
      rcases Nat.mod_two_eq_zero_or_one n with heven | hodd
      · simp only [roundsUp, heven]
        exact nearest_down hlo h.le fun _ => heven
      · simp only [roundsUp, hodd]
        exact nearest_up h.ge hhi fun _ => by omega
    | rmm => exact nearest_away h.ge hhi
    | rtz | rdn => exact ⟨hlo, hhi⟩
    | rup => exact hup nofun
  | above =>
    cases mode with
    | rne => exact nearest_up h.1.le hhi fun htie => absurd htie h.1.ne'
    | rmm => exact nearest_away h.1.le hhi
    | rtz | rdn => exact ⟨hlo, hhi⟩
    | rup => exact hup nofun

/-! ## Inexactness -/

theorem roundsUp_exact (mode : Rounding) (neg : Bool) (n : Nat) : roundsUp mode neg n .exact = false := by
  cases mode <;> rfl

theorem Tail.Describes.bounds {t : Tail} {n : Nat} {x : ℚ} (h : t.Describes n x) (hne : t ≠ .exact) :
    (n : ℚ) < x ∧ x < n + 1 := by
  cases t with
  | exact => exact absurd rfl hne
  | below => exact ⟨h.1, by linarith [h.2]⟩
  | half =>
    obtain rfl : x = n + 1 / 2 := h
    constructor <;> linarith
  | above => exact ⟨by linarith [h.1], h.2⟩

/-- A rounded quotient is called inexact where it is not the quotient. -/
theorem Tail.Describes.inexact_iff {t : Tail} {n : Nat} {x : ℚ} (h : t.Describes n x) (mode : Rounding) (neg : Bool) :
    (t != .exact) = false ↔ x = (if roundsUp mode neg n t then n + 1 else n : Nat) := by
  rw [bne_eq_false_iff_eq]
  constructor
  · rintro rfl
    rwa [roundsUp_exact]
  · intro heq
    by_contra hne
    obtain ⟨hlo, hhi⟩ := h.bounds hne
    subst heq
    split at hlo <;> split at hhi <;> simp_all

/-- A rounded root is called inexact where its square is not the number under the root. -/
theorem Tail.DescribesRoot.inexact_iff {t : Tail} {n : Nat} {x : ℚ} (h : t.DescribesRoot n x) (mode : Rounding)
    (neg : Bool) : (t != .exact) = false ↔ x = ((if roundsUp mode neg n t then n + 1 else n : Nat) : ℚ) ^ 2 := by
  rw [bne_eq_false_iff_eq]
  constructor
  · rintro rfl
    rwa [roundsUp_exact]
  · intro heq
    by_contra hne
    obtain ⟨-, hhi, hlo⟩ := h.bounds
    replace hlo := hlo hne
    subst heq
    split at hlo <;> split at hhi <;> simp_all

/-- Rounding a quotient to a multiple of `2^q` (R222, R223 step 1). -/
theorem Magnitude.roundAt_quot (num den exp q mode neg) (hd : 0 < den) :
    let r := (Magnitude.quot num den exp).roundAt mode neg q
    let x := quotient num den (exp - q)
    RoundedTo mode neg x r.1 ∧ (r.2 = false ↔ x = r.1) :=
  have h := truncAt_quot num exp q hd
  ⟨.of_describes h mode neg, h.inexact_iff mode neg⟩

/-- Rounding a square root to a multiple of `2^q`. -/
theorem Magnitude.roundAt_root (rad exp q mode) :
    let r := (Magnitude.root rad exp).roundAt mode false q
    let x : ℚ := rad * 4 ^ (exp - q)
    RootRoundedTo mode x r.1 ∧ (r.2 = false ↔ x = (r.1 : ℚ) ^ 2) :=
  have h := truncAt_root rad exp q
  ⟨.of_describes h mode, h.inexact_iff mode false⟩

/-- Settles O53: what is rounded is described by its integer part and its tail. -/
theorem roundingFollowsTheDirection : Obligations.RoundingFollowsTheDirection := by
  unfold Obligations.RoundingFollowsTheDirection
  exact ⟨fun num den exp q mode neg hd => Magnitude.roundAt_quot num den exp q mode neg hd,
    fun rad exp q mode => Magnitude.roundAt_root rad exp q mode⟩

/-! ## The exponent of a magnitude -/

theorem log2_bounds {n : Nat} (hn : 0 < n) : (2 : ℚ) ^ (n.log2 : ℤ) ≤ n ∧ (n : ℚ) < 2 ^ ((n.log2 : ℤ) + 1) := by
  have hlt : n < 2 ^ (n.log2 + 1) := Nat.lt_log2_self
  exact ⟨by exact_mod_cast Nat.log2_self_le hn.ne', by exact_mod_cast hlt⟩

/-- The exponent of a quotient is the difference of its parts' exponents, or one less. -/
theorem Magnitude.log2_quot {num den : Nat} (hnum : 0 < num) (hden : 0 < den) (exp : Int) :
    (2 : ℚ) ^ (Magnitude.quot num den exp).log2 ≤ quotient num den exp ∧
      quotient num den exp < 2 ^ ((Magnitude.quot num den exp).log2 + 1) := by
  obtain ⟨hnlo, hnhi⟩ := log2_bounds hnum
  obtain ⟨hdlo, hdhi⟩ := log2_bounds hden
  have hdq : (0 : ℚ) < den := by exact_mod_cast hden
  unfold Magnitude.log2 quotient
  dsimp only
  generalize hk : (num.log2 : ℤ) - den.log2 = k
  have hlo : (2 : ℚ) ^ (k - 1) ≤ num / den := by
    rw [le_div_iff₀ hdq]
    calc (2 : ℚ) ^ (k - 1) * den ≤ 2 ^ (k - 1) * 2 ^ ((den.log2 : ℤ) + 1) := by gcongr
      _ = 2 ^ (num.log2 : ℤ) := by rw [← zpow_add₀ two_ne_zero]; congr 1; omega
      _ ≤ num := hnlo
  have hhi : (num / den : ℚ) < 2 ^ (k + 1) := by
    rw [div_lt_iff₀ hdq]
    calc (num : ℚ) < 2 ^ ((num.log2 : ℤ) + 1) := hnhi
      _ = 2 ^ (k + 1) * 2 ^ (den.log2 : ℤ) := by rw [← zpow_add₀ two_ne_zero]; congr 1; omega
      _ ≤ 2 ^ (k + 1) * den := by gcongr
  have htest : den * 2 ^ k.toNat ≤ num * 2 ^ (-k).toNat ↔ (2 : ℚ) ^ k ≤ num / den := by
    rw [zpow_eq_div_toNat two_ne_zero, div_le_div_iff₀ (by positivity) hdq, mul_comm den]
    exact_mod_cast Iff.rfl
  have hscale (e : ℤ) : (2 : ℚ) ^ (exp + e) = 2 ^ e * 2 ^ exp := by rw [zpow_add₀ two_ne_zero, mul_comm]
  have hexp : (0 : ℚ) < 2 ^ exp := by positivity
  rw [add_assoc, hscale, hscale]
  simp only [mul_le_mul_iff_left₀ hexp, mul_lt_mul_iff_left₀ hexp]
  split
  · next h => exact ⟨htest.1 h, hhi⟩
  · next h => exact ⟨hlo, by rw [sub_add_cancel]; exact not_le.1 fun h' => h (htest.2 h')⟩

/-- The exponent of a square root is half that of the number under it. -/
theorem Magnitude.log2_root {rad : Nat} (hrad : 0 < rad) (exp : Int) :
    (4 : ℚ) ^ (Magnitude.root rad exp).log2 ≤ rad * 4 ^ exp ∧
      rad * 4 ^ exp < (4 : ℚ) ^ ((Magnitude.root rad exp).log2 + 1) := by
  have hlo : 4 ^ (rad.log2 / 2) ≤ rad :=
    calc 4 ^ (rad.log2 / 2) = 2 ^ (2 * (rad.log2 / 2)) := (pow_mul 2 2 _).symm
      _ ≤ 2 ^ rad.log2 := Nat.pow_le_pow_right two_pos (by omega)
      _ ≤ rad := Nat.log2_self_le hrad.ne'
  have hhi : rad < 4 ^ (rad.log2 / 2 + 1) :=
    calc rad < 2 ^ (rad.log2 + 1) := Nat.lt_log2_self
      _ ≤ 2 ^ (2 * (rad.log2 / 2 + 1)) := Nat.pow_le_pow_right two_pos (by omega)
      _ = 4 ^ (rad.log2 / 2 + 1) := pow_mul 2 2 _
  have hscale (n : Nat) : (4 : ℚ) ^ (exp + (n : ℤ)) = (4 ^ n : Nat) * 4 ^ exp := by
    rw [zpow_add₀ four_ne_zero, mul_comm, zpow_natCast]
    push_cast
    rfl
  have hexp : (0 : ℚ) < 4 ^ exp := by positivity
  unfold Magnitude.log2
  dsimp only
  rw [add_assoc, ← Nat.cast_succ, hscale, hscale]
  simp only [mul_le_mul_iff_left₀ hexp, mul_lt_mul_iff_left₀ hexp]
  exact ⟨by exact_mod_cast hlo, by exact_mod_cast hhi⟩

end Sys2Proof.Machine
end

section
/-! Bit patterns of a format (R220): sign and magnitude, the value of a magnitude, which rises with its bits, and what
`datum` reads from a pattern. -/

namespace Sys2Proof.Machine

open Sys2Proof

namespace Format

variable {F : Format} {a : Nat} {neg : Bool} {mag : Nat}

/-! ## Sign and magnitude -/

theorem signBit_pos (F : Format) : 0 < F.signBit := Nat.two_pow_pos _

/-- The patterns from infinity on: those with all exponent bits. -/
theorem infBits_add (F : Format) : F.infBits + 2 ^ F.fracBits = F.signBit := by
  have hE : 1 ≤ 2 ^ F.expBits := Nat.one_le_two_pow
  rw [infBits, signBit, pow_add, Nat.sub_mul, one_mul, Nat.sub_add_cancel (Nat.le_mul_of_pos_left _ hE)]

theorem infBits_lt_signBit (F : Format) : F.infBits < F.signBit := by
  rw [← F.infBits_add]
  exact Nat.lt_add_of_pos_right (Nat.two_pow_pos _)

theorem magnitude_lt (F : Format) (a : Nat) : F.magnitude a < F.signBit := Nat.mod_lt _ F.signBit_pos

theorem sign_eq (h : a < 2 * F.signBit) : F.sign a = decide (F.signBit ≤ a) := by
  have hnat := toNat_sign h
  have hdiv : 1 ≤ a / F.signBit ↔ F.signBit ≤ a := by rw [Nat.le_div_iff_mul_le F.signBit_pos, one_mul]
  rw [Bool.eq_iff_iff, decide_eq_true_iff, ← hdiv, ← hnat]
  cases F.sign a <;> simp

/-- A pattern is its sign on its magnitude. -/
theorem withSign_sign_magnitude (h : a < 2 * F.signBit) : F.withSign (F.sign a) (F.magnitude a) = a :=
  (inject_sign h).trans (Nat.div_add_mod' a F.signBit)

theorem withSign_lt (h : mag < F.signBit) (neg : Bool) : F.withSign neg mag < 2 * F.signBit := by
  cases neg <;> simp [withSign] <;> omega

theorem sign_withSign (h : mag < F.signBit) (neg : Bool) : F.sign (F.withSign neg mag) = neg := by
  rw [sign_eq (withSign_lt h neg)]
  cases neg <;> simp [withSign, h]

theorem magnitude_withSign (h : mag < F.signBit) (neg : Bool) : F.magnitude (F.withSign neg mag) = mag := by
  cases neg <;> simp [withSign, magnitude, Nat.mod_eq_of_lt h]

@[simp] theorem sign_neg (F : Format) (a : Nat) : F.sign (F.neg a) = !F.sign a := sign_withSign (F.magnitude_lt a) _

@[simp] theorem magnitude_neg (F : Format) (a : Nat) : F.magnitude (F.neg a) = F.magnitude a :=
  magnitude_withSign (F.magnitude_lt a) _

/-! ## The value of a magnitude -/

/-- The value of the pattern of a magnitude, read as if infinity and the NaNs were further finite numbers. -/
def magValue (F : Format) (mag : Nat) : ℚ :=
  ((if mag / 2 ^ F.fracBits = 0 then 0 else 2 ^ F.fracBits) + mag % 2 ^ F.fracBits : Nat) *
    2 ^ (F.emin - F.fracBits + (mag / 2 ^ F.fracBits - 1 : Nat))

theorem magValue_of_lt (h : mag < 2 ^ F.fracBits) : F.magValue mag = mag * 2 ^ (F.emin - F.fracBits) := by
  simp [magValue, Nat.div_eq_of_lt h, Nat.mod_eq_of_lt h]

/-- A normal number: `n` in units of `2^e` above the least ones. Where `n` is `2^(M+1)` the pattern is that of the next
exponent. -/
theorem magValue_normal {e n : Nat} (hlo : 2 ^ F.fracBits ≤ n) (hhi : n ≤ 2 * 2 ^ F.fracBits) :
    F.magValue (e * 2 ^ F.fracBits + n) = n * 2 ^ (F.emin - F.fracBits + e) := by
  generalize hP : 2 ^ F.fracBits = P at hlo hhi
  have hP0 : 0 < P := hP ▸ Nat.two_pow_pos _
  unfold magValue
  rw [hP]
  rcases hhi.lt_or_eq with hlt | rfl
  · obtain ⟨m, rfl⟩ := Nat.exists_eq_add_of_le hlo
    have hm : m < P := by omega
    have hsplit : e * P + (P + m) = P * (e + 1) + m := by ring
    rw [hsplit, Nat.mul_add_div hP0, Nat.div_eq_of_lt hm, Nat.mul_add_mod, Nat.mod_eq_of_lt hm]
    simp
  · have hsplit : e * P + 2 * P = P * (e + 2) := by ring
    rw [hsplit, Nat.mul_div_cancel_left _ hP0, Nat.mul_mod_right]
    simp only [Nat.add_eq_zero_iff, OfNat.ofNat_ne_zero, and_false, if_false, add_zero]
    rw [show e + 2 - 1 = e + 1 by omega, Nat.cast_succ, ← add_assoc, zpow_add_one₀ two_ne_zero]
    push_cast
    ring

/-- Every magnitude from `2^M` on is a normal number. -/
theorem exists_normal (h : 2 ^ F.fracBits ≤ mag) :
    ∃ e n, mag = e * 2 ^ F.fracBits + n ∧ 2 ^ F.fracBits ≤ n ∧ n < 2 * 2 ^ F.fracBits := by
  have hP : 0 < 2 ^ F.fracBits := Nat.two_pow_pos _
  have hdiv : 1 ≤ mag / 2 ^ F.fracBits := (Nat.one_le_div_iff hP).2 h
  refine ⟨mag / 2 ^ F.fracBits - 1, 2 ^ F.fracBits + mag % 2 ^ F.fracBits, ?_, Nat.le_add_right _ _, ?_⟩
  · have := Nat.div_add_mod' mag (2 ^ F.fracBits)
    rw [← add_assoc, ← Nat.succ_mul, Nat.succ_eq_add_one, Nat.sub_add_cancel hdiv, this]
  · have := Nat.mod_lt mag hP
    omega

theorem magValue_subnormal (h : mag ≤ 2 ^ F.fracBits) : F.magValue mag = mag * 2 ^ (F.emin - F.fracBits) := by
  rcases h.lt_or_eq with hlt | rfl
  · exact magValue_of_lt hlt
  · have := magValue_normal (F := F) (e := 0) le_rfl (by omega)
    simpa using this

@[simp] theorem magValue_zero (F : Format) : F.magValue 0 = 0 := by simp [magValue]

/-- The value rises with the bits (R220). -/
theorem magValue_strictMono (F : Format) : StrictMono F.magValue := by
  refine strictMono_nat_of_lt_succ fun mag => ?_
  rcases lt_or_ge mag (2 ^ F.fracBits) with hlt | hge
  · rw [magValue_subnormal hlt.le, magValue_subnormal hlt]
    gcongr
    exact Nat.lt_succ_self mag
  · obtain ⟨e, n, rfl, hlo, hhi⟩ := exists_normal hge
    rw [add_assoc, magValue_normal hlo hhi.le, magValue_normal (by omega) (by omega)]
    gcongr
    exact Nat.lt_succ_self n

theorem magValue_nonneg (F : Format) (mag : Nat) : 0 ≤ F.magValue mag := by
  unfold magValue
  positivity

theorem magValue_pos (F : Format) (h : 0 < mag) : 0 < F.magValue mag := by
  rw [← F.magValue_zero]
  exact F.magValue_strictMono h

/-! ## What a pattern reads as -/

/-- What a pattern may read as, by its magnitude: a NaN above infinity, infinity, zero, or a finite number that has the
value of the magnitude. -/
inductive Reads (F : Format) (a : Nat) : Datum → Prop
  | nan (p : Bool) (h : F.infBits < F.magnitude a) : Reads F a (.nan p)
  | inf (h : F.magnitude a = F.infBits) : Reads F a (.inf (F.sign a))
  | zero (h : F.magnitude a = 0) : Reads F a (.zero (F.sign a))
  | fin (m : Nat) (e : Int) (hm : 0 < m) (hm' : m < 2 * 2 ^ F.fracBits) (he : F.emin - F.fracBits ≤ e)
      (h : F.magnitude a < F.infBits) (hv : m * 2 ^ e = F.magValue (F.magnitude a)) : Reads F a (.fin (F.sign a) m e)

theorem mod_fracBits (F : Format) (a : Nat) : a % 2 ^ F.fracBits = F.magnitude a % 2 ^ F.fracBits :=
  (Nat.mod_mod_of_dvd a (Nat.pow_dvd_pow 2 (Nat.le_add_left _ _))).symm

/-- The exponent field (R220). -/
theorem magnitude_div (F : Format) (a : Nat) :
    F.magnitude a / 2 ^ F.fracBits = a / 2 ^ F.fracBits % 2 ^ F.expBits := by
  rw [magnitude, signBit, pow_add, mul_comm, Nat.mod_mul_right_div_self]

/-- The magnitudes without all exponent bits are below infinity. -/
theorem magnitude_lt_infBits (h : F.magnitude a / 2 ^ F.fracBits ≠ 2 ^ F.expBits - 1) : F.magnitude a < F.infBits := by
  have hlt : F.magnitude a / 2 ^ F.fracBits < 2 ^ F.expBits := by
    rw [magnitude_div]
    exact Nat.mod_lt _ (Nat.two_pow_pos _)
  exact (Nat.div_lt_iff_lt_mul (Nat.two_pow_pos _)).1 (by omega)

theorem datum_reads (F : Format) (a : Nat) : F.Reads a (F.datum a) := by
  have hsplit := Nat.div_add_mod' (F.magnitude a) (2 ^ F.fracBits)
  have hmod := Nat.mod_lt (F.magnitude a) (Nat.two_pow_pos F.fracBits)
  unfold datum
  rw [mod_fracBits]
  dsimp only
  split
  · next he =>
    rw [he] at hsplit
    change F.infBits + _ = _ at hsplit
    split
    · next hm => exact .inf (by omega)
    · next hm => exact .nan _ (by omega)
  · next he =>
    have hlt := magnitude_lt_infBits he
    split
    · next he₀ =>
      rw [he₀, zero_mul, zero_add] at hsplit
      rw [hsplit] at hmod ⊢
      split
      · next hm => exact .zero hm
      · next hm => exact .fin _ _ (Nat.pos_of_ne_zero hm) (by omega) le_rfl hlt (magValue_of_lt hmod).symm
    · next he₀ =>
      refine .fin _ _ (by positivity) (by omega) (by omega) hlt ?_
      unfold magValue
      rw [if_neg he₀]

section
variable {n : Bool}

theorem of_datum_inf (h : F.datum a = .inf n) : F.magnitude a = F.infBits ∧ F.sign a = n := by
  have := h ▸ F.datum_reads a
  cases this with
  | inf hm => exact ⟨hm, rfl⟩

theorem of_datum_zero (h : F.datum a = .zero n) : F.magnitude a = 0 ∧ F.sign a = n := by
  have := h ▸ F.datum_reads a
  cases this with
  | zero hm => exact ⟨hm, rfl⟩

end

/-! ## The value of a pattern -/

theorem infBits_pos (hF : 0 < F.expBits) : 0 < F.infBits := by
  have : 2 ≤ 2 ^ F.expBits := Nat.pow_le_pow_right two_pos hF
  unfold infBits
  have hP : 0 < 2 ^ F.fracBits := Nat.two_pow_pos _
  exact Nat.mul_pos (by omega) hP

/-- The value of a pattern, read as if infinity and the NaNs were further finite numbers. -/
def patternValue (F : Format) (a : Nat) : ℚ :=
  if F.sign a then -F.magValue (F.magnitude a) else F.magValue (F.magnitude a)

theorem Reads.value {d : Datum} (hd : F.Reads a d) (h : F.magnitude a < F.infBits) :
    d.value = some (F.patternValue a) := by
  unfold patternValue
  cases hd with
  | nan _ hm => omega
  | inf hm => omega
  | zero hm => simp [Datum.value, hm]
  | fin m e _ _ _ _ hv =>
    rw [← hv]
    cases F.sign a <;> simp [Datum.value]

/-- A finite pattern has its value. -/
theorem datum_value (h : F.magnitude a < F.infBits) : (F.datum a).value = some (F.patternValue a) :=
  (F.datum_reads a).value h

theorem Reads.finite {d : Datum} {x : ℚ} (hF : 0 < F.expBits) (hd : F.Reads a d) (h : d.value = some x) :
    F.magnitude a < F.infBits := by
  cases hd with
  | nan | inf => cases h
  | zero hm => exact hm ▸ infBits_pos hF
  | fin _ _ _ _ _ hm _ => exact hm

theorem finite_of_value {x : ℚ} (hF : 0 < F.expBits) (h : (F.datum a).value = some x) :
    F.magnitude a < F.infBits ∧ x = F.patternValue a := by
  have hlt := (F.datum_reads a).finite hF h
  rw [datum_value hlt, Option.some_inj] at h
  exact ⟨hlt, h.symm⟩

/-- The bits with a sign on a finite magnitude represent that magnitude's value. -/
theorem represents_withSign (h : mag < F.infBits) (neg : Bool) :
    F.Represents neg (F.magValue mag) (F.withSign neg mag) := by
  have hlt : mag < F.signBit := h.trans F.infBits_lt_signBit
  refine ⟨withSign_lt hlt neg, ?_, ?_⟩
  · rw [← sign_eq (withSign_lt hlt neg), sign_withSign hlt]
  · rw [datum_value (by rwa [magnitude_withSign hlt]), patternValue, sign_withSign hlt, magnitude_withSign hlt]

/-! ## The order of patterns (R227) -/

/-- The value of a signed magnitude. -/
def keyValue (F : Format) (k : Int) : ℚ := if k < 0 then -F.magValue k.natAbs else F.magValue k.natAbs

theorem keyValue_strictMono (F : Format) : StrictMono F.keyValue := by
  intro k l hkl
  unfold keyValue
  split
  · next hk =>
    have hpos : 0 < F.magValue k.natAbs := F.magValue_pos (by omega)
    split
    · next hl => exact neg_lt_neg (F.magValue_strictMono (by omega))
    · next hl => linarith [F.magValue_nonneg l.natAbs]
  · next hk =>
    rw [if_neg (by omega)]
    exact F.magValue_strictMono (by omega)

theorem natAbs_orderKey (F : Format) (a : Nat) : (F.orderKey a).natAbs = F.magnitude a := by
  unfold orderKey
  split <;> omega

theorem keyValue_orderKey (F : Format) (a : Nat) : F.keyValue (F.orderKey a) = F.patternValue a := by
  unfold keyValue patternValue
  rw [natAbs_orderKey]
  unfold orderKey
  cases F.sign a with
  | false => simp
  | true =>
    rcases (F.magnitude a).eq_zero_or_pos with hm | hm
    · simp [hm]
    · simp [hm]

/-- A number that is not a NaN, as an extended real: an infinity, at either end of the keys, or the value of its key. -/
theorem Reads.extended {d : Datum} {x : WithBot (WithTop ℚ)} (hF : 0 < F.expBits) (hd : F.Reads a d)
    (h : d.extended = some x) :
    (F.orderKey a = F.infBits ∧ x = ((⊤ : WithTop ℚ) : WithBot (WithTop ℚ))) ∨ (F.orderKey a = -F.infBits ∧ x = ⊥) ∨
      ((-F.infBits < F.orderKey a ∧ F.orderKey a < F.infBits) ∧
        x = ((F.keyValue (F.orderKey a) : WithTop ℚ) : WithBot (WithTop ℚ))) := by
  have hfin (hlt : F.magnitude a < F.infBits) : -F.infBits < F.orderKey a ∧ F.orderKey a < F.infBits := by
    rw [← F.natAbs_orderKey] at hlt
    omega
  rw [keyValue_orderKey]
  cases hd with
  | nan => cases h
  | inf hm =>
    unfold orderKey
    rw [hm]
    revert h
    cases F.sign a with
    | false => exact fun h => .inl ⟨rfl, (Option.some_inj.1 h).symm⟩
    | true => exact fun h => .inr (.inl ⟨rfl, (Option.some_inj.1 h).symm⟩)
  | zero hm =>
    have hlt : F.magnitude a < F.infBits := hm ▸ infBits_pos hF
    rw [Datum.extended, (Reads.zero hm).value hlt] at h
    · exact .inr (.inr ⟨hfin hlt, (Option.some_inj.1 h).symm⟩)
    all_goals nofun
  | fin m e h₁ h₂ h₃ hlt hv =>
    rw [Datum.extended, (Reads.fin m e h₁ h₂ h₃ hlt hv).value hlt] at h
    · exact .inr (.inr ⟨hfin hlt, (Option.some_inj.1 h).symm⟩)
    all_goals nofun

section
variable {b : Nat} {x y : WithBot (WithTop ℚ)}

/-- The keys are in the order of the extended reals. -/
theorem extended_lt_iff (hF : 0 < F.expBits) (hx : (F.datum a).extended = some x) (hy : (F.datum b).extended = some y) :
    x < y ↔ F.orderKey a < F.orderKey b := by
  have hpos := infBits_pos hF
  rcases (F.datum_reads a).extended hF hx with ⟨ha, rfl⟩ | ⟨ha, rfl⟩ | ⟨ha, rfl⟩ <;>
    rcases (F.datum_reads b).extended hF hy with ⟨hb, rfl⟩ | ⟨hb, rfl⟩ | ⟨hb, rfl⟩
  case inr.inr.inr.inr =>
    rw [WithBot.coe_lt_coe, WithTop.coe_lt_coe, F.keyValue_strictMono.lt_iff_lt]
  case inr.inr.inl =>
    rw [WithBot.coe_lt_coe, iff_true_left (WithTop.coe_lt_top _)]
    omega
  all_goals simp
  all_goals omega

theorem extended_le_iff (hF : 0 < F.expBits) (hx : (F.datum a).extended = some x) (hy : (F.datum b).extended = some y) :
    x ≤ y ↔ F.orderKey a ≤ F.orderKey b := by
  rw [← not_lt, extended_lt_iff hF hy hx, not_lt]

theorem extended_eq_iff (hF : 0 < F.expBits) (hx : (F.datum a).extended = some x) (hy : (F.datum b).extended = some y) :
    x = y ↔ F.orderKey a = F.orderKey b := by
  rw [le_antisymm_iff, extended_le_iff hF hx hy, extended_le_iff hF hy hx, le_antisymm_iff]

end

end Format

end Sys2Proof.Machine
end

section
/-! Comparisons (R227), minimum and maximum (R226), classification (R228) and conversions to integers (R229), from what
the operands' patterns mean. -/

namespace Sys2Proof.Machine

open Sys2Proof

theorem Datum.isNaN_of_extended {d : Datum} {x : WithBot (WithTop ℚ)} (h : d.extended = some x) : d.isNaN = false := by
  cases d with
  | nan => cases h
  | _ => rfl

theorem Datum.isSignaling_of_not_isNaN {d : Datum} (h : d.isNaN = false) : d.isSignaling = false := by
  cases d with
  | nan => cases h
  | _ => rfl

theorem Format.expBits_pos {F : Format} (hF : F = binary32 ∨ F = binary64) : 0 < F.expBits := by
  rcases hF with rfl | rfl <;> decide

/-- The factor a sign stands for. -/
def signFactor (neg : Bool) : ℚ := if neg then -1 else 1

theorem signFactor_mul (neg neg' : Bool) : signFactor neg * signFactor neg' = signFactor (neg != neg') := by
  cases neg <;> cases neg' <;> norm_num [signFactor]

theorem signFactor_mul_neg_iff {x : ℚ} (hx : 0 < x) (neg : Bool) : signFactor neg * x < 0 ↔ neg = true := by
  cases neg
  · simp [signFactor, hx.not_gt]
  · simp [signFactor, hx]

theorem abs_signFactor_mul {x : ℚ} (hx : 0 < x) (neg : Bool) : |signFactor neg * x| = x := by
  cases neg <;> simp [signFactor, abs_of_pos hx]

theorem Datum.value_fin (neg : Bool) (m : Nat) (e : Int) :
    (Datum.fin neg m e).value = some (signFactor neg * (m * 2 ^ e)) :=
  congrArg some (mul_assoc _ _ _)

theorem nanFlags_pair (c d : Datum) :
    nanFlags [c, d] = if c.isSignaling || d.isSignaling then flagNV else flagNone := by
  simp [nanFlags, flagNV, flagNone]

namespace Format

variable {F : Format} {a b : Nat}

/-! ## Comparisons (R227) -/

theorem compare_nan (h : (F.datum a).isNaN = true ∨ (F.datum b).isNaN = true) (quiet : Bool) (rel : Int → Int → Bool) :
    F.compare quiet rel a b =
      (0, if !quiet || (F.datum a).isSignaling || (F.datum b).isSignaling then flagNV else flagNone) := by
  unfold compare
  exact if_pos (Bool.or_eq_true_iff.2 h)

/-- A comparison of numbers is that of their keys, which are in the order of their values. -/
theorem compare_number {x y : WithBot (WithTop ℚ)} (hx : (F.datum a).extended = some x)
    (hy : (F.datum b).extended = some y) (quiet : Bool) (rel : Int → Int → Bool) :
    F.compare quiet rel a b = (if rel (F.orderKey a) (F.orderKey b) then 1 else 0, flagNone) := by
  unfold compare
  dsimp only
  rw [Datum.isNaN_of_extended hx, Datum.isNaN_of_extended hy]
  rfl

end Format

/-- Settles O54: the keys that are compared are in the order of the values. -/
theorem comparisonsFollowTheReals : Obligations.ComparisonsFollowTheReals := by
  unfold Obligations.ComparisonsFollowTheReals
  intro F hF a b _ _ A B
  have hE := Format.expBits_pos hF
  constructor
  · intro hnan
    exact ⟨Format.compare_nan hnan _ _, Format.compare_nan hnan _ _,
      (Format.compare_nan hnan _ _).trans (by rw [nanFlags_pair]; rfl)⟩
  · intro x y hx hy
    rw [Format.extended_lt_iff hE hx hy, Format.extended_le_iff hE hx hy, ne_eq, Format.extended_eq_iff hE hx hy]
    unfold Format.lt Format.le Format.eq
    simp only [Format.compare_number hx hy]
    refine ⟨fun h => ?_, fun h => ?_, fun h => ?_, fun h => ?_, fun h => ?_, fun h => ?_⟩ <;> simp [h, flagNone]

namespace Format

variable {F : Format} {a b : Nat}

/-! ## Minimum and maximum (R226) -/

/-- Two patterns of one sign and one key are the same. -/
theorem eq_of_orderKey_eq (ha : a < 2 * F.signBit) (hb : b < 2 * F.signBit) (hs : F.sign a = F.sign b)
    (hk : F.orderKey a = F.orderKey b) : a = b := by
  have hm : F.magnitude a = F.magnitude b := by rw [← natAbs_orderKey, hk, natAbs_orderKey]
  rw [← withSign_sign_magnitude ha, hs, hm, withSign_sign_magnitude hb]

theorem below_of_lt (h : F.orderKey a < F.orderKey b) : F.below a b = true ∧ F.below b a = false := by
  have hne : (F.orderKey b == F.orderKey a) = false := beq_eq_false_iff_ne.2 (by omega)
  simp [below, h, hne, h.le]

theorem below_of_eq (h : F.orderKey a = F.orderKey b) : F.below a b = (F.sign a && !F.sign b) := by
  simp [below, h]

section
variable (first : Bool)

theorem minMax_nan_nan (ha : (F.datum a).isNaN = true) (hb : (F.datum b).isNaN = true) :
    F.minMax first a b = (F.nanBits, nanFlags [F.datum a, F.datum b]) := by
  simp [minMax, ha, hb, nanFlags_pair]

theorem minMax_nan_left (ha : (F.datum a).isNaN = true) (hb : (F.datum b).isNaN = false) :
    F.minMax first a b = (b, nanFlags [F.datum a, F.datum b]) := by
  simp [minMax, ha, hb, nanFlags_pair]

theorem minMax_nan_right (ha : (F.datum a).isNaN = false) (hb : (F.datum b).isNaN = true) :
    F.minMax first a b = (a, nanFlags [F.datum a, F.datum b]) := by
  simp [minMax, ha, hb, nanFlags_pair]

theorem minMax_number (ha : (F.datum a).isNaN = false) (hb : (F.datum b).isNaN = false) :
    F.minMax first a b = (if first then a else b, 0) := by
  simp [minMax, ha, hb, Datum.isSignaling_of_not_isNaN ha, Datum.isSignaling_of_not_isNaN hb, flagNone]

end

section
variable (ha : (F.datum a).isNaN = false) (hb : (F.datum b).isNaN = false)
include ha hb

theorem min_max_of_lt (h : F.orderKey a < F.orderKey b) : F.min a b = (a, 0) ∧ F.max a b = (b, 0) := by
  obtain ⟨hab, hba⟩ := below_of_lt h
  unfold Format.min Format.max
  rw [minMax_number _ ha hb, minMax_number _ ha hb, hab, hba]
  exact ⟨rfl, rfl⟩

theorem min_max_of_gt (h : F.orderKey b < F.orderKey a) : F.min a b = (b, 0) ∧ F.max a b = (a, 0) := by
  obtain ⟨hba, hab⟩ := below_of_lt h
  unfold Format.min Format.max
  rw [minMax_number _ ha hb, minMax_number _ ha hb, hab, hba]
  exact ⟨rfl, rfl⟩

/-- Of two zeros of different signs, -0 is the smaller; other numbers of one value are one pattern. -/
theorem min_max_of_eq (hla : a < 2 * F.signBit) (hlb : b < 2 * F.signBit) (h : F.orderKey a = F.orderKey b) :
    F.min a b = (if F.sign a then a else b, 0) ∧ F.max a b = (if F.sign a then b else a, 0) := by
  have hsame : F.sign a = F.sign b → a = b := fun hs => eq_of_orderKey_eq hla hlb hs h
  unfold Format.min Format.max
  rw [minMax_number _ ha hb, minMax_number _ ha hb, below_of_eq h, below_of_eq h.symm]
  cases hsa : F.sign a <;> cases hsb : F.sign b <;> simp_all

end

/-! ## Classification (R228) -/

/-- The class by the fields (R228). -/
theorem classify_eq (ha : a < 2 * F.signBit) :
    let e := a / 2 ^ F.fracBits % 2 ^ F.expBits
    let m := a % 2 ^ F.fracBits
    let sgn := decide (F.signBit ≤ a)
    F.classify a = 2 ^ (if e = 2 ^ F.expBits - 1 then
         if m = 0 then (if sgn then 0 else 7) else if m < 2 ^ (F.fracBits - 1) then 8 else 9
       else if e = 0 then
         if m = 0 then (if sgn then 3 else 4) else (if sgn then 2 else 5)
       else (if sgn then 1 else 6)) := by
  have hm : a % 2 ^ F.fracBits < 2 ^ F.fracBits := Nat.mod_lt _ (Nat.two_pow_pos _)
  unfold classify datum
  rw [sign_eq ha, magnitude_div]
  dsimp only
  generalize decide (F.signBit ≤ a) = sgn
  generalize a / 2 ^ F.fracBits % 2 ^ F.expBits = e
  generalize a % 2 ^ F.fracBits = m at hm
  by_cases he : e = 2 ^ F.expBits - 1
  · rw [if_pos he, if_pos he]
    by_cases hm₀ : m = 0
    · rw [if_pos hm₀, if_pos hm₀]
      cases sgn <;> rfl
    · rw [if_neg hm₀, if_neg hm₀]
      by_cases hsig : m < 2 ^ (F.fracBits - 1)
      · rw [Nat.div_eq_of_lt hsig, if_pos hsig]
        rfl
      · have : ¬ m / 2 ^ (F.fracBits - 1) = 0 := by rwa [Nat.div_eq_zero_iff_lt (Nat.two_pow_pos _)]
        simp [hsig, beq_eq_false_iff_ne.2 this]
  · rw [if_neg he, if_neg he]
    by_cases he₀ : e = 0
    · rw [if_pos he₀, if_pos he₀]
      by_cases hm₀ : m = 0
      · rw [if_pos hm₀, if_pos hm₀]
        cases sgn <;> rfl
      · rw [if_neg hm₀, if_neg hm₀]
        cases sgn <;> simp [hm]
    · rw [if_neg he₀, if_neg he₀]
      cases sgn <;> simp

/-! ## Conversions to integers (R229) -/

theorem RoundedTo.zero (mode : Rounding) (neg : Bool) : RoundedTo mode neg 0 0 := by
  have := RoundedTo.of_describes (t := .exact) (n := 0) (x := 0) Nat.cast_zero.symm mode neg
  rwa [roundsUp_exact] at this

/-- A finite number's integer, saturated (R229). -/
theorem toInt_finite {x : ℚ} (hx : (F.datum a).value = some x) (mode : Rounding) {t : IntType} (hlo : t.lo ≤ 0)
    (hhi : 0 ≤ t.hi) :
    ∃ n : Nat, RoundedTo mode (decide (x < 0)) |x| n ∧
      let k : Int := if x < 0 then -(n : Int) else n
      F.toInt a mode t = if k < t.lo then (t.lo, flagNV) else if t.hi < k then (t.hi, flagNV)
        else (k, if (k : ℚ) = x then flagNone else flagNX) := by
  have hread := F.datum_reads a
  unfold toInt
  revert hx hread
  generalize F.datum a = d
  intro hx hread
  cases hread with
  | nan | inf => cases hx
  | zero =>
    obtain rfl : 0 = x := Option.some_inj.1 hx
    refine ⟨0, by simpa using RoundedTo.zero mode false, ?_⟩
    simp [hlo.not_gt, hhi.not_gt]
  | fin m e hm =>
    have hpos : (0 : ℚ) < m * 2 ^ e := by positivity
    have hneg := signFactor_mul_neg_iff hpos (F.sign a)
    have habs := abs_signFactor_mul hpos (F.sign a)
    rw [Datum.value_fin, Option.some_inj] at hx
    subst hx
    obtain ⟨hround, hexact⟩ := Magnitude.roundAt_quot m 1 e 0 mode (F.sign a) one_pos
    rw [sub_zero, quotient_one] at hround hexact
    simp only [hneg, habs, Bool.decide_coe]
    refine ⟨_, hround, ?_⟩
    generalize (Magnitude.quot m 1 e).roundAt mode (F.sign a) 0 = r at hexact ⊢
    have hexact' : ((if F.sign a then -(r.1 : Int) else r.1 : Int) : ℚ) = signFactor (F.sign a) * (m * 2 ^ e) ↔
        r.2 = false := by
      rw [hexact]
      cases F.sign a <;> simp [signFactor, eq_comm]
    simp only [hexact']
    cases r.2 <;> rfl

theorem toInt_nan_or_inf (mode : Rounding) (t : IntType)
    (h : (F.datum a).isNaN = true ∨ F.datum a = .inf false) : F.toInt a mode t = (t.hi, flagNV) := by
  unfold toInt
  rcases h with h | h
  · cases hd : F.datum a with
    | nan => rfl
    | _ => rw [hd] at h; cases h
  · rw [h]

theorem toInt_neg_inf (mode : Rounding) (t : IntType) (h : F.datum a = .inf true) :
    F.toInt a mode t = (t.lo, flagNV) := by
  unfold toInt
  rw [h]

end Format

/-- The ranges of the four integer types (R229). -/
theorem intType_range {t : IntType} {lo hi : Int}
    (h : (t, lo, hi) ∈ [(intW, -2 ^ 31, 2 ^ 31 - 1), (intWU, 0, 2 ^ 32 - 1), (intL, -2 ^ 63, 2 ^ 63 - 1),
      (intLU, 0, 2 ^ 64 - 1)]) : t.lo = lo ∧ t.hi = hi ∧ lo ≤ 0 ∧ 0 ≤ hi := by
  simp only [List.mem_cons, Prod.mk.injEq, List.not_mem_nil, or_false] at h
  rcases h with ⟨rfl, rfl, rfl⟩ | ⟨rfl, rfl, rfl⟩ | ⟨rfl, rfl, rfl⟩ | ⟨rfl, rfl, rfl⟩ <;> decide

theorem Format.nanBits_eq {F : Format} (hF : F = binary32 ∨ F = binary64) :
    F.nanBits = if F = binary32 then 0x7FC00000 else 0x7FF8000000000000 := by
  rcases hF with rfl | rfl <;> decide

/-- Settles O57: minimum and maximum by the order of the keys, the class by the fields, the integer by rounding to a
multiple of 1. -/
theorem minMaxClassifyAndToIntegerResults : Obligations.MinMaxClassifyAndToIntegerResults := by
  unfold Obligations.MinMaxClassifyAndToIntegerResults
  intro F hF a b ha hb A B nan sgn fl
  have hE := Format.expBits_pos hF
  have hnan : F.nanBits = nan := Format.nanBits_eq hF
  have hsgn : F.sign a = sgn a := Format.sign_eq ha
  refine ⟨fun hA hB => ?_, fun hA hB => ⟨Format.minMax_nan_left _ hA hB, Format.minMax_nan_left _ hA hB⟩,
    fun hA hB => ⟨Format.minMax_nan_right _ hA hB, Format.minMax_nan_right _ hA hB⟩, fun x y hx hy => ?_,
    Format.classify_eq ha, fun mode t lo hi ht => ?_⟩
  · rw [← hnan]
    exact ⟨Format.minMax_nan_nan _ hA hB, Format.minMax_nan_nan _ hA hB⟩
  · have hA := Datum.isNaN_of_extended hx
    have hB := Datum.isNaN_of_extended hy
    rw [Format.extended_lt_iff hE hx hy, Format.extended_lt_iff hE hy hx, Format.extended_eq_iff hE hx hy, ← hsgn]
    exact ⟨Format.min_max_of_lt hA hB, Format.min_max_of_gt hA hB, Format.min_max_of_eq hA hB ha hb⟩
  · obtain ⟨rfl, rfl, hlo, hhi⟩ := intType_range ht
    exact ⟨Format.toInt_nan_or_inf mode t, Format.toInt_neg_inf mode t, fun x hx => Format.toInt_finite hx mode hlo hhi⟩

end Sys2Proof.Machine
end

section
/-! Rounding to a format (R223, steps 1 to 5): the bits `Format.round` gives are those of the exact magnitude, rounded
once; and the operations on finite operands round their exact results (R225, R229). -/

namespace Sys2Proof.Machine

open Sys2Proof

/-! ## Neighbours -/

/-- A number rounded in any direction is less than 1 away. -/
theorem RoundedTo.near {mode : Rounding} {neg : Bool} {x : ℚ} {n : Nat} (h : RoundedTo mode neg x n) :
    x < n + 1 ∧ (n : ℚ) < x + 1 := by
  cases mode with
  | rne | rmm =>
    obtain ⟨hlo, hhi⟩ := abs_le.1 h.1
    constructor <;> linarith
  | rtz => exact ⟨h.2, by linarith [h.1]⟩
  | rdn | rup =>
    cases neg <;> obtain ⟨hlo, hhi⟩ := h <;> constructor <;> linarith

theorem RoundedTo.natCast_le {mode : Rounding} {neg : Bool} {x : ℚ} {n k : Nat} (h : RoundedTo mode neg x n)
    (hk : k ≤ x) : k ≤ n := by
  have : (k : ℚ) < n + 1 := by linarith [h.near.1]
  exact Nat.lt_succ_iff.1 (by exact_mod_cast this)

theorem RoundedTo.le_natCast {mode : Rounding} {neg : Bool} {x : ℚ} {n k : Nat} (h : RoundedTo mode neg x n)
    (hk : x ≤ k) : n ≤ k := by
  have : (n : ℚ) < k + 1 := by linarith [h.near.2]
  exact Nat.lt_succ_iff.1 (by exact_mod_cast this)

theorem RootRoundedTo.near {mode : Rounding} {x : ℚ} {n : Nat} (h : RootRoundedTo mode x n) :
    x < (n + 1) ^ 2 ∧ (n = 0 ∨ (n - 1 : ℚ) ^ 2 < x) := by
  have hn : (0 : ℚ) ≤ n := n.cast_nonneg
  have below_middle (hlo : n = 0 ∨ (2 * n - 1 : ℚ) ^ 2 ≤ 4 * x) : n = 0 ∨ (n - 1 : ℚ) ^ 2 < x := by
    rcases n.eq_zero_or_pos with h₀ | hpos
    · exact .inl h₀
    · have : (1 : ℚ) ≤ n := by exact_mod_cast hpos
      exact .inr (by nlinarith [hlo.resolve_left hpos.ne'])
  cases mode with
  | rne =>
    obtain ⟨hlo, hhi, -, -⟩ := h
    exact ⟨by nlinarith, below_middle hlo⟩
  | rmm =>
    obtain ⟨hlo, hhi⟩ := h
    exact ⟨by nlinarith, below_middle hlo⟩
  | rtz | rdn =>
    obtain ⟨hlo, hhi⟩ := h
    refine ⟨hhi, n.eq_zero_or_pos.imp id fun hpos => ?_⟩
    have : (1 : ℚ) ≤ n := by exact_mod_cast hpos
    nlinarith
  | rup =>
    obtain ⟨hlo, hhi⟩ := h
    exact ⟨by nlinarith, hhi⟩

theorem RootRoundedTo.natCast_le {mode : Rounding} {x : ℚ} {n k : Nat} (h : RootRoundedTo mode x n)
    (hk : (k : ℚ) ^ 2 ≤ x) : k ≤ n := by
  have : (k : ℚ) < n + 1 := lt_of_pow_lt_pow_left₀ 2 (by positivity) (hk.trans_lt h.near.1)
  exact Nat.lt_succ_iff.1 (by exact_mod_cast this)

theorem RootRoundedTo.le_natCast {mode : Rounding} {x : ℚ} {n k : Nat} (h : RootRoundedTo mode x n)
    (hk : x ≤ (k : ℚ) ^ 2) : n ≤ k := by
  rcases h.near.2 with rfl | hlo
  · exact k.zero_le
  · have : (n : ℚ) - 1 < k := lt_of_pow_lt_pow_left₀ 2 k.cast_nonneg (hlo.trans_le hk)
    exact Nat.lt_succ_iff.1 (by exact_mod_cast (by linarith : (n : ℚ) < k + 1))

namespace Format

variable {F : Format}

/-! ## The ends of the finite numbers (R220) -/

theorem emin_eq (hF : F = binary32 ∨ F = binary64) : F.emin = 1 - F.emax := by
  rcases hF with rfl | rfl <;> decide

theorem infBits_eq (hF : F = binary32 ∨ F = binary64) : F.infBits = F.greatest + 1 := by
  rcases hF with rfl | rfl <;> decide

theorem magValue_two_pow (F : Format) : F.magValue (2 ^ F.fracBits) = 2 ^ F.emin := by
  rw [magValue_subnormal le_rfl]
  push_cast
  rw [← zpow_natCast, ← zpow_add₀ two_ne_zero, add_sub_cancel]

theorem two_pow_lt_infBits (hF : F = binary32 ∨ F = binary64) : 2 ^ F.fracBits < F.infBits := by
  rcases hF with rfl | rfl <;> decide

/-- The pattern of infinity is that of 2^(emax+1), which is no finite number's. -/
theorem magValue_infBits (hF : F = binary32 ∨ F = binary64) : F.magValue F.infBits = 2 ^ (F.emax + 1) := by
  have hsplit : F.infBits = (2 ^ F.expBits - 2) * 2 ^ F.fracBits + 2 ^ F.fracBits := by
    rcases hF with rfl | rfl <;> decide
  have hexp : (F.fracBits : Int) + (F.emin - F.fracBits + (2 ^ F.expBits - 2 : Nat)) = F.emax + 1 := by
    rcases hF with rfl | rfl <;> decide
  rw [hsplit, magValue_normal le_rfl (by omega)]
  push_cast
  rw [← zpow_natCast, ← zpow_add₀ two_ne_zero, hexp]

/-! ## The bits of a rounded number -/

/-- The bits of `n * 2^(L - M)`, with `n` from `2^M` on, as `round` computes them. -/
def roundedBits (F : Format) (L : Int) (n : Nat) : Int := (L - F.emin) * 2 ^ F.fracBits + n

/-- The greatest rounded significand, in its units. -/
theorem two_mul_two_pow_mul (F : Format) (L : Int) : (2 * 2 ^ F.fracBits : ℚ) * 2 ^ (L - F.fracBits) = 2 ^ (L + 1) := by
  rw [← zpow_natCast, ← zpow_one_add₀ two_ne_zero, ← zpow_add₀ two_ne_zero]
  congr 1
  omega

section
variable {L : Int} {n : Nat} (hlo : 2 ^ F.fracBits ≤ n) (hhi : n ≤ 2 * 2 ^ F.fracBits)
include hlo hhi

/-- The bits have the value, where it is not below the least normal number. -/
theorem magValue_roundedBits (h : 2 ^ F.fracBits ≤ F.roundedBits L n) :
    F.magValue (F.roundedBits L n).toNat = n * 2 ^ (L - F.fracBits) := by
  rcases le_or_gt F.emin L with hL | hL
  · have hbits : (F.roundedBits L n).toNat = (L - F.emin).toNat * 2 ^ F.fracBits + n := by
      rw [roundedBits, ← Int.toNat_of_nonneg (sub_nonneg.2 hL)]
      norm_cast
    rw [hbits, magValue_normal hlo hhi]
    congr 2
    omega
  · have hP : (0 : Int) < 2 ^ F.fracBits := by positivity
    have hhi' : (n : Int) ≤ 2 * 2 ^ F.fracBits := by exact_mod_cast hhi
    unfold roundedBits at h ⊢
    obtain rfl : L = F.emin - 1 := by
      have : (-1 : Int) * 2 ^ F.fracBits ≤ (L - F.emin) * 2 ^ F.fracBits := by linarith
      have := le_of_mul_le_mul_right this hP
      omega
    obtain rfl : n = 2 * 2 ^ F.fracBits := by
      refine le_antisymm hhi ?_
      zify
      linarith
    have hbits : ((F.emin - 1 - F.emin) * 2 ^ F.fracBits + (2 * 2 ^ F.fracBits : Nat)).toNat = 2 ^ F.fracBits := by
      have : ((F.emin - 1 - F.emin) * 2 ^ F.fracBits + (2 * 2 ^ F.fracBits : Nat)) = (2 ^ F.fracBits : Nat) := by
        push_cast
        ring
      rw [this, Int.toNat_natCast]
    rw [hbits, magValue_two_pow]
    push_cast
    rw [two_mul_two_pow_mul, sub_add_cancel]

/-- The bits are those of a number below the least normal one exactly where the value is. -/
theorem roundedBits_lt_iff : F.roundedBits L n < 2 ^ F.fracBits ↔ (n : ℚ) * 2 ^ (L - F.fracBits) < 2 ^ F.emin := by
  have hP : (0 : Int) < 2 ^ F.fracBits := by positivity
  have hhi' : (n : ℚ) ≤ 2 * 2 ^ F.fracBits := by exact_mod_cast hhi
  constructor
  · intro h
    unfold roundedBits at h
    have hlo' : (2 : Int) ^ F.fracBits ≤ n := by exact_mod_cast hlo
    have hL : L - F.emin < 0 := by
      by_contra hge
      have := mul_nonneg (not_lt.1 hge) hP.le
      omega
    rcases (show L + 1 ≤ F.emin by omega).lt_or_eq with hlt | heq
    · calc (n : ℚ) * 2 ^ (L - F.fracBits) ≤ 2 * 2 ^ F.fracBits * 2 ^ (L - F.fracBits) := by gcongr
        _ = 2 ^ (L + 1) := F.two_mul_two_pow_mul L
        _ < 2 ^ F.emin := zpow_lt_zpow_right₀ one_lt_two hlt
    · have hn : (n : Int) < 2 * 2 ^ F.fracBits := by
        rw [← heq, sub_add_cancel_left] at h
        linarith
      have hn : (n : ℚ) < 2 * 2 ^ F.fracBits := by exact_mod_cast hn
      calc (n : ℚ) * 2 ^ (L - F.fracBits) < 2 * 2 ^ F.fracBits * 2 ^ (L - F.fracBits) := by gcongr
        _ = 2 ^ F.emin := by rw [F.two_mul_two_pow_mul L, heq]
  · intro h
    by_contra hge
    rw [not_lt] at hge
    rw [← magValue_roundedBits hlo hhi hge, ← magValue_two_pow, F.magValue_strictMono.lt_iff_lt,
      Int.toNat_lt_of_ne_zero (Nat.two_pow_pos _).ne'] at h
    exact absurd hge (not_le.2 (by exact_mod_cast h))

/-- The bits are those of infinity or more exactly where the value is beyond the finite numbers. -/
theorem infBits_le_iff (hF : F = binary32 ∨ F = binary64) (h : 2 ^ F.fracBits ≤ F.roundedBits L n) :
    F.infBits ≤ F.roundedBits L n ↔ (2 : ℚ) ^ (F.emax + 1) ≤ n * 2 ^ (L - F.fracBits) := by
  have hP : (0 : Int) < 2 ^ F.fracBits := by positivity
  rw [← magValue_roundedBits hlo hhi h, ← magValue_infBits hF, F.magValue_strictMono.le_iff_le]
  omega

end

/-! ## `Round_F` (R223) -/

section
variable {neg : Bool} {v : Magnitude} {mode : Rounding}

theorem round_tiny (h : F.roundedBits v.log2 (v.roundAt mode neg (v.log2 - F.fracBits)).1 < 2 ^ F.fracBits) :
    F.round neg v mode = (F.withSign neg (v.roundAt mode neg (F.emin - F.fracBits)).1,
      if (v.roundAt mode neg (F.emin - F.fracBits)).2 then flagUFNX else flagNone) :=
  if_pos h

theorem round_overflow (h : (2 : Int) ^ F.fracBits ≤ F.roundedBits v.log2 (v.roundAt mode neg (v.log2 - F.fracBits)).1)
    (h' : F.infBits ≤ F.roundedBits v.log2 (v.roundAt mode neg (v.log2 - F.fracBits)).1) :
    F.round neg v mode =
      (F.withSign neg (if overflowsToInf mode neg then F.infBits else F.infBits - 1), flagOFNX) :=
  (if_neg (not_lt.2 h)).trans (if_pos h')

theorem round_normal (h : (2 : Int) ^ F.fracBits ≤ F.roundedBits v.log2 (v.roundAt mode neg (v.log2 - F.fracBits)).1)
    (h' : F.roundedBits v.log2 (v.roundAt mode neg (v.log2 - F.fracBits)).1 < F.infBits) :
    F.round neg v mode = (F.withSign neg (F.roundedBits v.log2 (v.roundAt mode neg (v.log2 - F.fracBits)).1).toNat,
      if (v.roundAt mode neg (v.log2 - F.fracBits)).2 then flagNX else flagNone) :=
  (if_neg (not_lt.2 h)).trans (if_neg (not_le.2 h'))

end

/-- A magnitude in units of its last significant place has `M + 1` bits. -/
theorem significand_bounds {x : ℚ} {L M : Int} {b : ℚ} (hb : 0 < b) (hlo : b ^ L ≤ x) (hhi : x < b ^ (L + 1)) :
    b ^ M ≤ x / b ^ (L - M) ∧ x / b ^ (L - M) ≤ b ^ (M + 1) := by
  have hpos : 0 < b ^ (L - M) := by positivity
  rw [le_div_iff₀ hpos, div_le_iff₀ hpos, ← zpow_add₀ hb.ne', ← zpow_add₀ hb.ne', add_sub_cancel,
    show M + 1 + (L - M) = L + 1 by ring]
  exact ⟨hlo, hhi.le⟩

/-- The flag of an inexact result, from what rounding calls inexact. -/
theorem inexact_flag {inexact : Bool} {p : Prop} [Decidable p] (h : inexact = false ↔ p) (fl : FpFlags) :
    (if inexact then fl else flagNone) = if p then 0 else fl := by
  cases inexact with
  | false => rw [if_pos (h.1 rfl)]; rfl
  | true => rw [if_neg fun hp => Bool.noConfusion (h.2 hp)]; rfl

/-- A number that rounds to one below the least normal number has an exponent below the least. -/
theorem exponent_lt_of_tiny {L : Int} {n : Nat} (hlo : 2 ^ F.fracBits ≤ n)
    (htiny : (n : ℚ) * 2 ^ (L - F.fracBits) < 2 ^ F.emin) : L < F.emin := by
  rw [← zpow_lt_zpow_iff_right₀ (one_lt_two (α := ℚ))]
  refine lt_of_le_of_lt ?_ htiny
  rw [← div_le_iff₀ (by positivity), ← zpow_sub₀ two_ne_zero, sub_sub_cancel]
  exact_mod_cast hlo

/-- Such a number is at most the least normal one on the subnormal grid. -/
theorem subnormal_le {mode : Rounding} {neg : Bool} {v : ℚ} {L : Int} {k : Nat} (hLhi : v < 2 ^ (L + 1))
    (hL : L < F.emin) (hk : RoundedTo mode neg (v / 2 ^ (F.emin - F.fracBits)) k) : k ≤ 2 ^ F.fracBits := by
  refine hk.le_natCast ?_
  rw [div_le_iff₀ (by positivity)]
  push_cast
  rw [← zpow_natCast, ← zpow_add₀ two_ne_zero, add_sub_cancel]
  exact hLhi.le.trans (zpow_le_zpow_right₀ one_le_two hL)

/-- R223 from the bits of the rounded number: `n` is the magnitude to `M + 1` bits, `k` on the subnormal grid. -/
theorem Rounds.of_bits (hF : F = binary32 ∨ F = binary64) {mode : Rounding} {neg inexact subInexact : Bool} {v : ℚ}
    {L : Int} {n k : Nat} {r : FpResult} (hLlo : 2 ^ L ≤ v) (hLhi : v < 2 ^ (L + 1))
    (hn : RoundedTo mode neg (v / 2 ^ (L - F.fracBits)) n ∧ (inexact = false ↔ v / 2 ^ (L - F.fracBits) = n))
    (hk : RoundedTo mode neg (v / 2 ^ (F.emin - F.fracBits)) k ∧
      (subInexact = false ↔ v / 2 ^ (F.emin - F.fracBits) = k))
    (tiny : F.roundedBits L n < 2 ^ F.fracBits →
      r = (F.withSign neg k, if subInexact then flagUFNX else flagNone))
    (overflow : (2 : Int) ^ F.fracBits ≤ F.roundedBits L n → F.infBits ≤ F.roundedBits L n →
      r = (F.withSign neg (if overflowsToInf mode neg then F.infBits else F.infBits - 1), flagOFNX))
    (normal : (2 : Int) ^ F.fracBits ≤ F.roundedBits L n → F.roundedBits L n < F.infBits →
      r = (F.withSign neg (F.roundedBits L n).toNat, if inexact then flagNX else flagNone)) :
    F.Rounds mode neg v r := by
  obtain ⟨hround, hexact⟩ := hn
  obtain ⟨hsub, hsubExact⟩ := hk
  have hunit (q : Int) : (0 : ℚ) < 2 ^ q := by positivity
  rw [div_eq_iff (hunit _).ne', eq_comm (a := v)] at hexact hsubExact
  obtain ⟨hvlo, hvhi⟩ := significand_bounds (M := F.fracBits) two_pos hLlo hLhi
  have hlo : 2 ^ F.fracBits ≤ n := hround.natCast_le (by exact_mod_cast hvlo)
  have hhi : n ≤ 2 * 2 ^ F.fracBits := hround.le_natCast (by rw [← pow_succ']; exact_mod_cast hvhi)
  have hbits := roundedBits_lt_iff (L := L) hlo hhi
  have hnormal (hge : (2 : ℚ) ^ F.emin ≤ n * 2 ^ (L - F.fracBits)) : (2 : Int) ^ F.fracBits ≤ F.roundedBits L n :=
    not_lt.1 fun h => absurd (hbits.1 h) hge.not_gt
  have hends : (2 : ℚ) ^ F.emin < 2 ^ (F.emax + 1) := by
    rw [← magValue_two_pow, ← magValue_infBits hF]
    exact F.magValue_strictMono (two_pow_lt_infBits hF)
  unfold Rounds
  dsimp only
  rw [← emin_eq hF]
  refine ⟨L, n, k, hLlo, hLhi, hround, hsub, fun hover => ?_, fun htiny => ?_, fun hge hlt => ?_⟩
  · have h := hnormal (hends.le.trans hover)
    rw [overflow h ((infBits_le_iff hlo hhi hF h).2 hover), infBits_eq hF, Nat.add_sub_cancel]
    cases mode <;> cases neg <;> simp [withSign, overflowsToInf, flagOFNX]
  · rw [tiny (hbits.2 htiny)]
    refine ⟨?_, inexact_flag hsubExact flagUFNX⟩
    have hle : k ≤ 2 ^ F.fracBits := subnormal_le hLhi (exponent_lt_of_tiny hlo htiny) hsub
    rw [← magValue_subnormal hle]
    exact represents_withSign (hle.trans_lt (two_pow_lt_infBits hF)) neg
  · have h := hnormal hge
    have hlt : F.roundedBits L n < F.infBits :=
      not_le.1 fun hinf => absurd ((infBits_le_iff hlo hhi hF h).1 hinf) hlt.not_ge
    rw [normal h hlt]
    refine ⟨?_, inexact_flag hexact flagNX⟩
    rw [← magValue_roundedBits hlo hhi h]
    exact represents_withSign ((Int.toNat_lt_of_ne_zero (infBits_pos (expBits_pos hF)).ne').2 hlt) neg

/-- Rounding a positive quotient gives the bits and the flags of R223. -/
theorem round_quot (hF : F = binary32 ∨ F = binary64) (neg : Bool) {num den : Nat} (exp : Int) (mode : Rounding)
    (hnum : 0 < num) (hden : 0 < den) :
    F.Rounds mode neg (quotient num den exp) (F.round neg (.quot num den exp) mode) := by
  have hround (q : Int) := Magnitude.roundAt_quot num den exp q mode neg hden
  simp only [← quotient_div_zpow] at hround
  obtain ⟨hLlo, hLhi⟩ := Magnitude.log2_quot hnum hden exp
  exact .of_bits hF hLlo hLhi (hround _) (hround _) round_tiny round_overflow round_normal

theorem four_zpow (k : Int) : (4 : ℚ) ^ k = 2 ^ (2 * k) := by
  rw [zpow_mul]
  norm_num

/-- The root of a finite number is far from the ends of the exponents. -/
theorem root_exponent (hF : F = binary32 ∨ F = binary64) {v : ℚ} {L : Int} (hlo : 2 ^ (F.emin - F.fracBits) ≤ v)
    (hhi : v < 2 ^ (F.emax + 1)) (hLlo : 4 ^ L ≤ v) (hLhi : v < 4 ^ (L + 1)) : F.emin ≤ L ∧ L < F.emax := by
  rw [four_zpow] at hLlo hLhi
  have hdown : F.emin - F.fracBits < 2 * (L + 1) := (zpow_lt_zpow_iff_right₀ one_lt_two).1 (hlo.trans_lt hLhi)
  have hup : 2 * L < F.emax + 1 := (zpow_lt_zpow_iff_right₀ one_lt_two).1 (hLlo.trans_lt hhi)
  have hemin : (F.fracBits : Int) ≤ -F.emin := by rcases hF with rfl | rfl <;> decide
  have hemax : 1 ≤ F.emax := by rcases hF with rfl | rfl <;> decide
  omega

/-- The root of R223 from its bits: it is neither tiny nor an overflow. -/
theorem RootRounds.of_bits (hF : F = binary32 ∨ F = binary64) {mode : Rounding} {inexact : Bool} {v : ℚ} {L : Int}
    {n : Nat} {r : FpResult} (hLlo : 4 ^ L ≤ v) (hLhi : v < 4 ^ (L + 1)) (hemin : F.emin ≤ L) (hemax : L < F.emax)
    (hn : RootRoundedTo mode (v / 4 ^ (L - F.fracBits)) n ∧
      (inexact = false ↔ v / 4 ^ (L - F.fracBits) = (n : ℚ) ^ 2))
    (normal : (2 : Int) ^ F.fracBits ≤ F.roundedBits L n → F.roundedBits L n < F.infBits →
      r = (F.withSign false (F.roundedBits L n).toNat, if inexact then flagNX else flagNone)) :
    F.RootRounds mode v r := by
  obtain ⟨hround, hexact⟩ := hn
  have hunit (q : Int) : (0 : ℚ) < 2 ^ q := by positivity
  have hsquare : ((n : ℚ) * 2 ^ (L - F.fracBits)) ^ 2 = n ^ 2 * 4 ^ (L - F.fracBits) := by
    rw [mul_pow, four_zpow, mul_comm 2, zpow_mul]
    norm_cast
  rw [div_eq_iff (by positivity), ← hsquare, eq_comm (a := v)] at hexact
  obtain ⟨hvlo, hvhi⟩ := significand_bounds (M := F.fracBits) four_pos hLlo hLhi
  have hlo : 2 ^ F.fracBits ≤ n := by
    refine hround.natCast_le (hvlo.trans' (le_of_eq ?_))
    rw [four_zpow, mul_comm 2, zpow_mul]
    norm_cast
  have hhi : n ≤ 2 * 2 ^ F.fracBits := by
    refine hround.le_natCast (hvhi.trans (le_of_eq ?_))
    rw [four_zpow, mul_comm 2, zpow_mul, ← pow_succ']
    norm_cast
  have hnormal : (2 : Int) ^ F.fracBits ≤ F.roundedBits L n := by
    have hscaled : 0 ≤ (L - F.emin) * 2 ^ F.fracBits := mul_nonneg (sub_nonneg.2 hemin) (by positivity)
    have hlo' : (2 : Int) ^ F.fracBits ≤ n := by exact_mod_cast hlo
    unfold roundedBits
    linarith
  have hfinite : F.roundedBits L n < F.infBits := by
    rw [← not_le, infBits_le_iff hlo hhi hF hnormal, not_le]
    have hhi' : (n : ℚ) ≤ 2 * 2 ^ F.fracBits := by exact_mod_cast hhi
    calc (n : ℚ) * 2 ^ (L - F.fracBits) ≤ 2 * 2 ^ F.fracBits * 2 ^ (L - F.fracBits) := by gcongr
      _ = 2 ^ (L + 1) := F.two_mul_two_pow_mul L
      _ < 2 ^ (F.emax + 1) := zpow_lt_zpow_right₀ one_lt_two (by omega)
  refine ⟨L, n, by rwa [← emin_eq hF], hemax.le, hLlo, hLhi, hround, ?_⟩
  rw [normal hnormal hfinite]
  refine ⟨?_, inexact_flag hexact flagNX⟩
  rw [← magValue_roundedBits hlo hhi hnormal]
  exact represents_withSign ((Int.toNat_lt_of_ne_zero (infBits_pos (expBits_pos hF)).ne').2 hfinite) false

/-- Rounding the square root of a number with finite bits gives the bits and the flags of R223. -/
theorem round_root (hF : F = binary32 ∨ F = binary64) {rad : Nat} (exp : Int) (mode : Rounding) (hrad : 0 < rad)
    (hlo : 2 ^ (F.emin - F.fracBits) ≤ (rad * 4 ^ exp : ℚ)) (hhi : (rad * 4 ^ exp : ℚ) < 2 ^ (F.emax + 1)) :
    F.RootRounds mode (rad * 4 ^ exp) (F.round false (.root rad exp) mode) := by
  have hround (q : Int) := Magnitude.roundAt_root rad exp q mode
  simp only [zpow_sub₀ (four_ne_zero (α := ℚ)), ← mul_div_assoc] at hround
  obtain ⟨hLlo, hLhi⟩ := Magnitude.log2_root hrad exp
  obtain ⟨hemin, hemax⟩ := root_exponent hF hlo hhi hLlo hLhi
  exact .of_bits hF hLlo hLhi hemin hemax (hround _) round_normal

/-! ## Operations on finite operands (R225, R229) -/

/-- A finite pattern reads as a zero or as a number with its value. -/
theorem finite_cases {a : Nat} {x : ℚ} (h : (F.datum a).value = some x) :
    (F.datum a = .zero (F.sign a) ∧ x = 0) ∨
      ∃ m e, F.datum a = .fin (F.sign a) m e ∧ 0 < m ∧ x = signFactor (F.sign a) * (m * 2 ^ e) ∧
        m < 2 * 2 ^ F.fracBits ∧ F.emin - F.fracBits ≤ e ∧ (m * 2 ^ e : ℚ) < F.magValue F.infBits := by
  have hread := F.datum_reads a
  revert h hread
  generalize F.datum a = d
  intro h hread
  cases hread with
  | nan | inf => cases h
  | zero => exact .inl ⟨rfl, (Option.some_inj.1 h).symm⟩
  | fin m e hm hm' he hlt hv =>
    rw [Datum.value_fin, Option.some_inj] at h
    exact .inr ⟨m, e, rfl, hm, h.symm, hm', he, hv ▸ F.magValue_strictMono hlt⟩

/-- A result rounded with its sign. -/
theorem Rounds.of_signed {mode : Rounding} {neg : Bool} {w : ℚ} {r : FpResult} (hw : 0 < w)
    (h : F.Rounds mode neg w r) : F.Rounds mode (decide (signFactor neg * w < 0)) |signFactor neg * w| r := by
  simp only [abs_signFactor_mul hw, signFactor_mul_neg_iff hw, Bool.decide_coe]
  exact h

/-- The exact numbers of a sum in their common unit. -/
theorem scaled_mul_zpow (neg : Bool) (m : Nat) {e q : Int} (h : q ≤ e) :
    (scaled neg m e q : ℚ) * 2 ^ q = signFactor neg * (m * 2 ^ e) := by
  have hpow : (2 : ℚ) ^ (e - q).toNat * 2 ^ q = 2 ^ e := by
    rw [← zpow_natCast, ← zpow_add₀ two_ne_zero]
    congr 1
    omega
  rw [← hpow]
  unfold scaled signFactor
  cases neg <;> push_cast <;> simp <;> ring

theorem fin_mul_fin (n₁ n₂ : Bool) (m₁ m₂ : Nat) (e₁ e₂ : Int) :
    signFactor n₁ * (m₁ * 2 ^ e₁) * (signFactor n₂ * (m₂ * 2 ^ e₂)) =
      signFactor (n₁ != n₂) * ((m₁ * m₂ : Nat) * 2 ^ (e₁ + e₂)) := by
  rw [← signFactor_mul, zpow_add₀ two_ne_zero]
  push_cast
  ring

theorem fin_div_fin (n₁ n₂ : Bool) (m₁ m₂ : Nat) (e₁ e₂ : Int) :
    signFactor n₁ * (m₁ * 2 ^ e₁) / (signFactor n₂ * (m₂ * 2 ^ e₂)) =
      signFactor (n₁ != n₂) * quotient m₁ m₂ (e₁ - e₂) := by
  have hsign : signFactor n₁ / signFactor n₂ = signFactor (n₁ != n₂) := by
    cases n₁ <;> cases n₂ <;> norm_num [signFactor]
  rw [mul_div_mul_comm, hsign, mul_div_mul_comm, ← zpow_sub₀ two_ne_zero, quotient]

/-- The number under a root, with an even exponent taken out. -/
theorem rootOf_eq {m : Nat} (hm : 0 < m) (e : Int) :
    ∃ rad exp, rootOf m e = .root rad exp ∧ 0 < rad ∧ (rad * 4 ^ exp : ℚ) = m * 2 ^ e := by
  unfold rootOf
  split
  · next h =>
    refine ⟨m, e / 2, rfl, hm, ?_⟩
    rw [four_zpow, Int.mul_ediv_cancel_of_emod_eq_zero h]
  · next h =>
    refine ⟨2 * m, (e - 1) / 2, rfl, by omega, ?_⟩
    rw [four_zpow, Int.mul_ediv_cancel_of_emod_eq_zero (by omega), zpow_sub_one₀ two_ne_zero]
    push_cast
    ring

section
variable (hF : F = binary32 ∨ F = binary64) {neg n₁ n₂ : Bool} {m m₁ m₂ : Nat} {e e₁ e₂ : Int} {mode : Rounding}
include hF

theorem round_fin (hm : 0 < m) :
    F.Rounds mode (decide (signFactor neg * (m * 2 ^ e) < 0)) |signFactor neg * (m * 2 ^ e)|
      (F.round neg (.quot m 1 e) mode) := by
  have h := round_quot hF neg e mode hm one_pos
  rw [quotient_one] at h
  exact .of_signed (by positivity) h

/-- A non-zero integer in units of `2^e`. -/
theorem round_int {n : Int} (hn : n ≠ 0) :
    F.Rounds mode (decide ((n : ℚ) * 2 ^ e < 0)) |(n : ℚ) * 2 ^ e|
      (F.round (decide (n < 0)) (.quot n.natAbs 1 e) mode) := by
  have h := round_fin hF (neg := decide (n < 0)) (e := e) (mode := mode) (Int.natAbs_pos.2 hn)
  have hsign : signFactor (decide (n < 0)) * n.natAbs = n := by
    rcases lt_or_gt_of_ne hn with hneg | hpos
    · simp [signFactor, hneg, abs_of_neg]
    · simp [signFactor, hpos.not_gt, abs_of_pos, hpos]
  rwa [← mul_assoc, hsign] at h

/-- A sum that is not zero. -/
theorem sum_rounds {whenZero : FpResult}
    (hv : signFactor n₁ * (m₁ * 2 ^ e₁) + signFactor n₂ * (m₂ * 2 ^ e₂) ≠ (0 : ℚ)) :
    F.Rounds mode (decide (signFactor n₁ * (m₁ * 2 ^ e₁) + signFactor n₂ * (m₂ * 2 ^ e₂) < (0 : ℚ)))
      |signFactor n₁ * (m₁ * 2 ^ e₁) + signFactor n₂ * (m₂ * 2 ^ e₂)|
      (F.sum n₁ m₁ e₁ n₂ m₂ e₂ whenZero mode) := by
  unfold sum
  dsimp only
  rw [← scaled_mul_zpow _ _ (min_le_left e₁ e₂), ← scaled_mul_zpow _ _ (min_le_right e₁ e₂), ← add_mul] at hv ⊢
  rw [← Int.cast_add] at hv ⊢
  have hne := Int.cast_ne_zero.1 (left_ne_zero_of_mul hv)
  rw [if_neg hne]
  exact round_int hF hne

/-- The square root of a positive finite number. -/
theorem sqrt_rounds {a : Nat} {x : ℚ} (hx : (F.datum a).value = some x) (hpos : 0 < x) :
    F.RootRounds mode x (F.sqrt a mode) := by
  rcases finite_cases hx with ⟨-, rfl⟩ | ⟨m, e, ha, hm, rfl, -, he, hlt⟩
  · exact absurd hpos (lt_irrefl 0)
  · have hsign : F.sign a = false := by
      have hw : (0 : ℚ) < m * 2 ^ e := by positivity
      rw [← Bool.not_eq_true, ← signFactor_mul_neg_iff hw]
      exact hpos.not_gt
    obtain ⟨rad, exp, hroot, hrad, hv⟩ := rootOf_eq hm e
    have hlo : 2 ^ (F.emin - F.fracBits) ≤ (rad * 4 ^ exp : ℚ) := by
      rw [hv]
      calc (2 : ℚ) ^ (F.emin - F.fracBits) ≤ 2 ^ e := zpow_le_zpow_right₀ one_le_two he
        _ ≤ m * 2 ^ e := le_mul_of_one_le_left (by positivity) (by exact_mod_cast hm)
    have hval : signFactor false * (m * 2 ^ e) = (rad * 4 ^ exp : ℚ) := hv ▸ one_mul _
    rw [magValue_infBits hF, ← hv] at hlt
    unfold sqrt
    rw [ha, hsign, hval]
    dsimp only
    rw [hroot]
    exact round_root hF exp mode hrad hlo hlt

/-- A finite number converted from either format. -/
theorem ofFormat_rounds {G : Format} {a : Nat} {x : ℚ} (hx : (G.datum a).value = some x) (hne : x ≠ 0) :
    F.Rounds mode (decide (x < 0)) |x| (F.ofFormat G a mode) := by
  unfold ofFormat
  rcases finite_cases hx with ⟨-, rfl⟩ | ⟨m, e, ha, hm, rfl, -⟩
  · exact absurd rfl hne
  · rw [ha]
    exact round_fin hF hm

theorem ofInt_rounds {n : Int} (hne : (n : ℚ) ≠ 0) :
    F.Rounds mode (decide ((n : ℚ) < 0)) |(n : ℚ)| (F.ofInt n mode) := by
  have hne := Int.cast_ne_zero.1 hne
  have h := round_int hF (e := 0) (mode := mode) hne
  rw [zpow_zero, mul_one] at h
  unfold ofInt
  rwa [if_neg hne]

end

section
variable {a b c : Nat} {x y z : ℚ} {mode : Rounding} (hx : (F.datum a).value = some x) (hy : (F.datum b).value = some y)
include hx hy

theorem add_rounds (hF : F = binary32 ∨ F = binary64) (hne : x + y ≠ 0) :
    F.Rounds mode (decide (x + y < 0)) |x + y| (F.add a b mode) := by
  unfold add
  rcases finite_cases hx with ⟨ha, rfl⟩ | ⟨m₁, e₁, ha, hm₁, rfl, -⟩ <;>
    rcases finite_cases hy with ⟨hb, rfl⟩ | ⟨m₂, e₂, hb, hm₂, rfl, -⟩ <;>
    rw [ha, hb]
  · exact absurd (add_zero 0) hne
  · rw [zero_add]
    exact round_fin hF hm₂
  · rw [add_zero]
    exact round_fin hF hm₁
  · exact sum_rounds hF hne

theorem mul_rounds (hF : F = binary32 ∨ F = binary64) (hne : x * y ≠ 0) :
    F.Rounds mode (decide (x * y < 0)) |x * y| (F.mul a b mode) := by
  unfold mul
  rcases finite_cases hx with ⟨-, rfl⟩ | ⟨m₁, e₁, ha, hm₁, rfl, -⟩
  · exact absurd (zero_mul y) hne
  rcases finite_cases hy with ⟨-, rfl⟩ | ⟨m₂, e₂, hb, hm₂, rfl, -⟩
  · exact absurd (mul_zero _) hne
  rw [ha, hb, fin_mul_fin]
  exact round_fin hF (Nat.mul_pos hm₁ hm₂)

theorem div_rounds (hF : F = binary32 ∨ F = binary64) (hne : x / y ≠ 0) :
    F.Rounds mode (decide (x / y < 0)) |x / y| (F.div a b mode) := by
  unfold div
  rcases finite_cases hx with ⟨-, rfl⟩ | ⟨m₁, e₁, ha, hm₁, rfl, -⟩
  · exact absurd (zero_div y) hne
  rcases finite_cases hy with ⟨-, rfl⟩ | ⟨m₂, e₂, hb, hm₂, rfl, -⟩
  · exact absurd (div_zero _) hne
  rw [ha, hb, fin_div_fin]
  refine .of_signed ?_ (round_quot hF _ _ mode hm₁ hm₂)
  unfold quotient
  positivity

/-- A fused multiply-add of finite numbers is their product, a zero or not, plus the third operand. -/
theorem fma_finite (hc : (F.datum c).isNaN = false) :
    (x * y = 0 ∧ F.fma a b c mode = F.zeroPlus (F.sign a != F.sign b) (F.datum c) mode) ∨
      ∃ (m : Nat) (e : Int), 0 < m ∧ x * y = signFactor (F.sign a != F.sign b) * (m * 2 ^ e) ∧
        F.fma a b c mode = F.finPlus (F.sign a != F.sign b) m e (F.datum c) mode := by
  unfold fma
  dsimp only
  rw [hc]
  rcases finite_cases hx with ⟨ha, rfl⟩ | ⟨m₁, e₁, ha, hm₁, rfl, -⟩ <;>
    rcases finite_cases hy with ⟨hb, rfl⟩ | ⟨m₂, e₂, hb, hm₂, rfl, -⟩ <;>
    rw [ha, hb]
  · exact .inl ⟨zero_mul _, rfl⟩
  · exact .inl ⟨zero_mul _, rfl⟩
  · exact .inl ⟨mul_zero _, rfl⟩
  · exact .inr ⟨m₁ * m₂, e₁ + e₂, Nat.mul_pos hm₁ hm₂, fin_mul_fin _ _ _ _ _ _, rfl⟩

theorem fma_rounds (hF : F = binary32 ∨ F = binary64) (hz : (F.datum c).value = some z) (hne : x * y + z ≠ 0) :
    F.Rounds mode (decide (x * y + z < 0)) |x * y + z| (F.fma a b c mode) := by
  have hcases := finite_cases hz
  have hc : (F.datum c).isNaN = false := by
    rcases hcases with ⟨hc, -⟩ | ⟨_, _, hc, -⟩ <;> rw [hc] <;> rfl
  rcases fma_finite (mode := mode) hx hy hc with ⟨hxy, hfma⟩ | ⟨m, e, hm, hxy, hfma⟩ <;>
    rcases hcases with ⟨hc, rfl⟩ | ⟨m', e', hc, hm', rfl, -⟩ <;>
    rw [hfma, hc] <;> rw [hxy] at hne ⊢
  · exact absurd (add_zero 0) hne
  · rw [zero_add]
    exact round_fin hF hm'
  · rw [add_zero]
    exact round_fin hF hm
  · exact sum_rounds hF hne

end

/-- The negated pattern has the negated value. -/
theorem datum_neg_value (hF : 0 < F.expBits) {a : Nat} {x : ℚ} (h : (F.datum a).value = some x) :
    (F.datum (F.neg a)).value = some (-x) := by
  obtain ⟨hlt, rfl⟩ := finite_of_value hF h
  rw [datum_value (by rwa [magnitude_neg]), patternValue, patternValue, sign_neg, magnitude_neg]
  cases F.sign a <;> simp

end Format

/-- A natural number rounds to itself. -/
theorem RoundedTo.natCast_eq {mode : Rounding} {neg : Bool} {n k : Nat} (h : RoundedTo mode neg k n) : n = k :=
  le_antisymm (h.le_natCast le_rfl) (h.natCast_le le_rfl)

/-- A magnitude that fits the format, in its exponents and in its bits, is not changed by rounding (R223). -/
theorem Format.Rounds.exact {F : Format} {mode : Rounding} {neg : Bool} {m : Nat} {e : Int} {r : FpResult}
    (h : F.Rounds mode neg (m * 2 ^ e) r) (hm : m < 2 ^ F.fracBits) (hlo : 2 ^ (1 - F.emax) ≤ (m * 2 ^ e : ℚ))
    (hhi : (m * 2 ^ e : ℚ) < 2 ^ (F.emax + 1)) : F.Represents neg (m * 2 ^ e) r.1 ∧ r.2 = 0 := by
  obtain ⟨L, n, k, hLlo, -, hn, -, -, -, hnormal⟩ := h
  have hL : L < F.fracBits + e := by
    rw [← zpow_lt_zpow_iff_right₀ (one_lt_two (α := ℚ)), zpow_add₀ two_ne_zero, zpow_natCast]
    exact hLlo.trans_lt (mul_lt_mul_of_pos_right (by exact_mod_cast hm) (by positivity))
  have hgrid : (m * 2 ^ e / 2 ^ (L - F.fracBits) : ℚ) = (m * 2 ^ (F.fracBits + e - L).toNat : Nat) := by
    rw [mul_div_assoc, ← zpow_sub₀ two_ne_zero]
    push_cast
    rw [← zpow_natCast]
    congr 2
    omega
  have hexact : (n : ℚ) * 2 ^ (L - F.fracBits) = m * 2 ^ e := by
    rw [hgrid] at hn
    rw [hn.natCast_eq, ← hgrid, div_mul_cancel₀ _ (by positivity)]
  rw [hexact] at hnormal
  simpa using hnormal hlo hhi

/-- A single-precision number converted to double precision is exact. -/
theorem ofFormat_widen {a : Nat} {x : ℚ} (mode : Rounding) (hx : (binary32.datum a).value = some x) :
    (binary64.datum (binary64.ofFormat binary32 a mode).1).value = some x ∧
      (binary64.ofFormat binary32 a mode).2 = 0 := by
  unfold Format.ofFormat
  rcases Format.finite_cases hx with ⟨ha, rfl⟩ | ⟨m, e, ha, hm, rfl, hm', he, hlt⟩ <;> rw [ha] <;> dsimp only
  · have hpos : 0 < binary64.infBits := Format.infBits_pos (by decide)
    obtain ⟨-, -, hvalue⟩ := Format.represents_withSign hpos (binary32.sign a)
    exact ⟨hvalue.trans (by simp), rfl⟩
  · have h := Format.round_quot (.inr rfl) (F := binary64) (binary32.sign a) e mode hm one_pos
    rw [quotient_one] at h
    have hone : (1 : ℚ) ≤ m := by exact_mod_cast hm
    have he' : 1 - binary64.emax ≤ e := le_trans (by decide) he
    have hlo : (2 : ℚ) ^ (1 - binary64.emax) ≤ m * 2 ^ e :=
      (zpow_le_zpow_right₀ one_le_two he').trans (le_mul_of_one_le_left (by positivity) hone)
    have hhi : (m * 2 ^ e : ℚ) < 2 ^ (binary64.emax + 1) := by
      rw [Format.magValue_infBits (.inl rfl)] at hlt
      exact hlt.trans (zpow_lt_zpow_right₀ one_lt_two (by decide))
    obtain ⟨⟨-, -, hvalue⟩, hflags⟩ := h.exact (hm'.trans (by decide)) hlo hhi
    refine ⟨hvalue.trans (congrArg some ?_), hflags⟩
    cases binary32.sign a <;> simp [signFactor]

/-- Settles O55: each operation on finite operands rounds the exact result once; widening fits every number. -/
theorem finiteResultsAreExactValuesRounded : Obligations.FiniteResultsAreExactValuesRounded := by
  unfold Obligations.FiniteResultsAreExactValuesRounded
  intro F hF
  refine ⟨fun neg num den exp mode hnum hden => Format.round_quot hF neg exp mode hnum hden,
    fun a b c x y z mode _ _ _ hx hy hz => ?_, fun a x mode _ hx => ofFormat_widen mode hx⟩
  have hsub := Format.datum_neg_value (Format.expBits_pos hF) hy
  refine ⟨Format.add_rounds hx hy hF, ?_, Format.mul_rounds hx hy hF, fun _ => Format.div_rounds hx hy hF,
    Format.fma_rounds hx hy hF hz, Format.sqrt_rounds hF hx, fun n => Format.ofInt_rounds hF,
    fun G _ d w _ hw => Format.ofFormat_rounds hF hw⟩
  rw [sub_eq_add_neg]
  exact Format.add_rounds hx hsub hF

end Sys2Proof.Machine
end

section
/-! The results that are not rounded numbers (R224, R225): NaNs, infinities, zeros and divisions by zero, by what the
operands' patterns read as. -/

namespace Sys2Proof.Machine

open Sys2Proof

/-- A datum with its sign inverted. -/
def Datum.negate : Datum → Datum
  | .nan p => .nan p
  | .inf n => .inf !n
  | .zero n => .zero !n
  | .fin n m e => .fin (!n) m e

theorem Datum.isNaN_iff {d : Datum} : d.isNaN = true ↔ ∃ p, d = .nan p := by
  cases d <;> simp [Datum.isNaN]

theorem nanFlags_negate (c d : Datum) : nanFlags [c, d.negate] = nanFlags [c, d] := by
  cases d <;> rfl

namespace Format

variable {F : Format} {a b c : Nat} {n n₁ n₂ : Bool} {mode : Rounding}

/-! ## Patterns -/

theorem datum_neg (F : Format) (a : Nat) : F.datum (F.neg a) = (F.datum a).negate := by
  unfold datum
  rw [mod_fracBits, F.mod_fracBits a, magnitude_neg, sign_neg]
  dsimp only
  split_ifs <;> rfl

/-- Inverting the sign bit adds it, modulo the width. -/
theorem neg_eq (h : a < 2 * F.signBit) : F.neg a = (a + F.signBit) % (2 * F.signBit) := by
  have hmag : F.magnitude a < F.signBit := F.magnitude_lt a
  have hsplit : F.withSign (F.sign a) (F.magnitude a) = a := withSign_sign_magnitude h
  unfold neg
  cases hs : F.sign a with
  | false =>
    have ha : F.magnitude a = a := by rwa [hs] at hsplit
    rw [Nat.mod_eq_of_lt (by omega), ha, add_comm]
    rfl
  | true =>
    have ha : F.signBit + F.magnitude a = a := by rwa [hs] at hsplit
    rw [show a + F.signBit = F.magnitude a + 2 * F.signBit by omega, Nat.add_mod_right, Nat.mod_eq_of_lt (by omega)]
    rfl

theorem withSign_infBits (ha : a < 2 * F.signBit) (h : F.datum a = .inf n) : F.withSign n F.infBits = a := by
  obtain ⟨hm, hs⟩ := of_datum_inf h
  rw [← hm, ← hs, withSign_sign_magnitude ha]

theorem datum_infBits (hF : 0 < F.expBits) : F.datum F.infBits = .inf false := by
  have hlt := F.infBits_lt_signBit
  have hmag : F.magnitude F.infBits = F.infBits := magnitude_withSign hlt false
  have hsign : F.sign F.infBits = false := sign_withSign hlt false
  have hread := F.datum_reads F.infBits
  have hpos := infBits_pos hF
  revert hread
  generalize F.datum F.infBits = A
  intro hread
  cases hread with
  | nan _ h => omega
  | inf => rw [hsign]
  | zero h => omega
  | fin m e _ _ _ h => omega

theorem withSign_zero (ha : a < 2 * F.signBit) (h : F.datum a = .zero n) : F.withSign n 0 = a := by
  obtain ⟨hm, hs⟩ := of_datum_zero h
  rw [← hm, ← hs, withSign_sign_magnitude ha]

theorem finite_or_zero (h : (F.datum a).value.isSome = true) :
    F.datum a = .zero (F.sign a) ∨ ∃ m e, F.datum a = .fin (F.sign a) m e := by
  obtain ⟨x, hx⟩ := Option.isSome_iff_exists.1 h
  rcases finite_cases hx with ⟨ha, -⟩ | ⟨m, e, ha, -⟩
  · exact .inl ha
  · exact .inr ⟨m, e, ha⟩

/-! ## NaNs (R224) -/

/-- Each operation of two operands begins with the NaN step. -/
theorem binary_nan (mode : Rounding) (h : (F.datum a).isNaN = true ∨ (F.datum b).isNaN = true) :
    F.add a b mode = (F.nanBits, nanFlags [F.datum a, F.datum b]) ∧
      F.mul a b mode = (F.nanBits, nanFlags [F.datum a, F.datum b]) ∧
      F.div a b mode = (F.nanBits, nanFlags [F.datum a, F.datum b]) := by
  unfold add mul div
  cases hA : F.datum a with
  | nan => exact ⟨rfl, rfl, rfl⟩
  | inf | zero | fin =>
    rw [hA] at h
    obtain ⟨p, hB⟩ := Datum.isNaN_iff.1 (h.resolve_left Bool.false_ne_true)
    rw [hB]
    exact ⟨rfl, rfl, rfl⟩

theorem sub_nan (mode : Rounding) (h : (F.datum a).isNaN = true ∨ (F.datum b).isNaN = true) :
    F.sub a b mode = (F.nanBits, nanFlags [F.datum a, F.datum b]) := by
  have hneg : (F.datum (F.neg b)).isNaN = (F.datum b).isNaN := by
    rw [datum_neg]
    cases F.datum b <;> rfl
  rw [← hneg] at h
  rw [← nanFlags_negate, ← datum_neg]
  exact (binary_nan mode h).1

/-! ## Infinities and zeros in sums, products and quotients (R225) -/

theorem inf_inf (hla : a < 2 * F.signBit) (mode : Rounding) (ha : F.datum a = .inf n₁) (hb : F.datum b = .inf n₂) :
    F.add a b mode = (if F.sign a != F.sign b then F.invalid else exactly a) ∧
      F.mul a b mode = exactly (F.withSign (F.sign a != F.sign b) F.infBits) ∧ F.div a b mode = F.invalid := by
  have hbits := withSign_infBits hla ha
  obtain ⟨-, rfl⟩ := of_datum_inf ha
  obtain ⟨-, rfl⟩ := of_datum_inf hb
  unfold add mul div
  rw [ha, hb]
  refine ⟨?_, rfl, rfl⟩
  dsimp only
  rw [hbits]
  cases F.sign a <;> cases F.sign b <;> rfl

theorem zero_zero (hla : a < 2 * F.signBit) (mode : Rounding) (ha : F.datum a = .zero n₁) (hb : F.datum b = .zero n₂) :
    F.add a b mode = (if F.sign a != F.sign b then F.zeroSum mode else exactly a) ∧ F.div a b mode = F.invalid := by
  have hbits := withSign_zero hla ha
  obtain ⟨-, rfl⟩ := of_datum_zero ha
  obtain ⟨-, rfl⟩ := of_datum_zero hb
  unfold add div
  rw [ha, hb]
  refine ⟨?_, rfl⟩
  dsimp only
  rw [hbits]
  cases F.sign a <;> cases F.sign b <;> rfl

/-- An infinity and a finite number in a sum or a quotient. -/
theorem inf_finite (hla : a < 2 * F.signBit) (mode : Rounding) (ha : F.datum a = .inf n₁)
    (hb : (F.datum b).value.isSome = true) :
    F.add a b mode = exactly a ∧ F.add b a mode = exactly a ∧
      F.div a b mode = exactly (F.withSign (F.sign a != F.sign b) F.infBits) ∧
      F.div b a mode = exactly (F.withSign (F.sign a != F.sign b) 0) := by
  have hbits := withSign_infBits hla ha
  obtain ⟨-, rfl⟩ := of_datum_inf ha
  have hcomm : (F.sign b != F.sign a) = (F.sign a != F.sign b) := bne_comm
  unfold add div
  rcases finite_or_zero hb with hb | ⟨m, e, hb⟩ <;>
    rw [ha, hb] <;> dsimp only <;> rw [hbits, hcomm] <;> exact ⟨rfl, rfl, rfl, rfl⟩

/-- An infinity and a zero in a product. -/
theorem inf_mul_zero (mode : Rounding) (ha : F.datum a = .inf n₁) (hb : F.datum b = .zero n₂) :
    F.mul a b mode = F.invalid ∧ F.mul b a mode = F.invalid := by
  unfold mul
  rw [ha, hb]
  exact ⟨rfl, rfl⟩

/-- An infinity and another finite number in a product. -/
theorem inf_mul_fin (mode : Rounding) {m : Nat} {e : Int} (ha : F.datum a = .inf n₁)
    (hb : F.datum b = .fin (F.sign b) m e) :
    F.mul a b mode = exactly (F.withSign (F.sign a != F.sign b) F.infBits) ∧
      F.mul b a mode = exactly (F.withSign (F.sign a != F.sign b) F.infBits) := by
  obtain ⟨-, rfl⟩ := of_datum_inf ha
  unfold mul
  rw [ha, hb, bne_comm (a := F.sign a)]
  exact ⟨by rw [bne_comm], rfl⟩

/-- A zero and a finite number in a product. -/
theorem zero_mul_finite (mode : Rounding) (ha : F.datum a = .zero n₁) (hb : (F.datum b).value.isSome = true) :
    F.mul a b mode = exactly (F.withSign (F.sign a != F.sign b) 0) ∧
      F.mul b a mode = exactly (F.withSign (F.sign a != F.sign b) 0) := by
  obtain ⟨-, rfl⟩ := of_datum_zero ha
  have hcomm : (F.sign b != F.sign a) = (F.sign a != F.sign b) := bne_comm
  unfold mul
  rcases finite_or_zero hb with hb | ⟨m, e, hb⟩ <;>
    rw [ha, hb] <;> dsimp only <;> rw [hcomm] <;> exact ⟨rfl, rfl⟩

/-- A zero and another finite number in a quotient. -/
theorem zero_div_fin (mode : Rounding) {m : Nat} {e : Int} (ha : F.datum a = .zero n₁)
    (hb : F.datum b = .fin (F.sign b) m e) :
    F.div a b mode = exactly (F.withSign (F.sign a != F.sign b) 0) ∧
      F.div b a mode = (F.withSign (F.sign a != F.sign b) F.infBits, flagDZ) := by
  obtain ⟨-, rfl⟩ := of_datum_zero ha
  unfold div
  rw [ha, hb, bne_comm (a := F.sign a)]
  exact ⟨by rw [bne_comm], rfl⟩

theorem fin_ne_zero (n : Bool) {m : Nat} (hm : 0 < m) (e : Int) : signFactor n * (m * 2 ^ e) ≠ 0 := by
  have hpos : (0 : ℚ) < m * 2 ^ e := by positivity
  rw [← abs_pos, abs_signFactor_mul hpos]
  exact hpos

/-- A sum of finite numbers that is zero. -/
theorem sum_eq_whenZero {m₁ m₂ : Nat} {e₁ e₂ : Int} {whenZero : FpResult}
    (h : signFactor n₁ * (m₁ * 2 ^ e₁) + signFactor n₂ * (m₂ * 2 ^ e₂) = (0 : ℚ)) :
    F.sum n₁ m₁ e₁ n₂ m₂ e₂ whenZero mode = whenZero := by
  rw [← scaled_mul_zpow _ _ (min_le_left e₁ e₂), ← scaled_mul_zpow _ _ (min_le_right e₁ e₂), ← add_mul,
    ← Int.cast_add, mul_eq_zero, or_iff_left (by positivity), Int.cast_eq_zero] at h
  exact if_pos h

theorem add_cancel {x y : ℚ} (mode : Rounding) (hx : (F.datum a).value = some x) (hy : (F.datum b).value = some y)
    (hne : x ≠ 0) (h : x + y = 0) : F.add a b mode = F.zeroSum mode := by
  unfold add
  rcases finite_cases hx with ⟨-, rfl⟩ | ⟨m₁, e₁, ha, -, rfl, -⟩
  · exact absurd rfl hne
  rcases finite_cases hy with ⟨-, rfl⟩ | ⟨m₂, e₂, hb, -, rfl, -⟩
  · exact absurd ((add_zero _).symm.trans h) hne
  rw [ha, hb]
  exact sum_eq_whenZero h

/-! ## Square roots (R225) -/

theorem sqrt_nan (mode : Rounding) (h : (F.datum a).isNaN = true) :
    F.sqrt a mode = (F.nanBits, nanFlags [F.datum a]) := by
  obtain ⟨p, hA⟩ := Datum.isNaN_iff.1 h
  unfold sqrt
  rw [hA]
  rfl

/-- The roots of the zeros and of +infinity are these numbers themselves. -/
theorem sqrt_zero_or_inf (hF : 0 < F.expBits) (ha : a < 2 * F.signBit) (mode : Rounding)
    (h : (∃ n, F.datum a = .zero n) ∨ a = F.infBits) : F.sqrt a mode = exactly a := by
  unfold sqrt
  rcases h with ⟨n, h⟩ | rfl
  · rw [h]
    dsimp only
    rw [withSign_zero ha h]
  · rw [datum_infBits hF]

/-- The root of a number below zero. -/
theorem sqrt_neg (mode : Rounding) (hnan : (F.datum a).isNaN = false) (h₀ : ¬ ∃ n, F.datum a = .zero n)
    (hs : F.sign a = true) : F.sqrt a mode = F.invalid := by
  have hread := F.datum_reads a
  unfold sqrt
  revert hread hnan h₀
  generalize F.datum a = A
  intro hnan h₀ hread
  cases hread with
  | nan => cases hnan
  | zero => exact absurd ⟨_, rfl⟩ h₀
  | inf | fin => rw [hs]

/-! ## Fused multiply-add (R225) -/

/-- Infinity times zero is invalid, whatever is added. -/
theorem fma_invalid (c : Nat) (mode : Rounding)
    (h : (∃ n, F.datum a = .inf n) ∧ (∃ n, F.datum b = .zero n) ∨
      (∃ n, F.datum a = .zero n) ∧ (∃ n, F.datum b = .inf n)) : F.fma a b c mode = F.invalid := by
  unfold fma
  rcases h with ⟨⟨_, ha⟩, _, hb⟩ | ⟨⟨_, ha⟩, _, hb⟩ <;> rw [ha, hb]

/-- The NaN step, where the product is not infinity times zero. -/
theorem fma_nan (mode : Rounding)
    (hvalid : ¬ ((∃ n, F.datum a = .inf n) ∧ (∃ n, F.datum b = .zero n) ∨
      (∃ n, F.datum a = .zero n) ∧ (∃ n, F.datum b = .inf n)))
    (h : (F.datum a).isNaN = true ∨ (F.datum b).isNaN = true ∨ (F.datum c).isNaN = true) :
    F.fma a b c mode = (F.nanBits, nanFlags [F.datum a, F.datum b, F.datum c]) := by
  unfold fma
  dsimp only
  revert hvalid h
  generalize F.datum a = A
  generalize F.datum b = B
  generalize F.datum c = C
  intro hvalid h
  have hC (hA : A.isNaN = false) (hB : B.isNaN = false) : ∃ p, C = .nan p := by
    rw [hA, hB] at h
    simpa [Datum.isNaN_iff] using h
  cases A with
  | nan => rfl
  | inf =>
    cases B with
    | nan => rfl
    | zero => exact absurd (.inl ⟨⟨_, rfl⟩, _, rfl⟩) hvalid
    | inf | fin =>
      obtain ⟨p, rfl⟩ := hC rfl rfl
      rfl
  | zero =>
    cases B with
    | nan => rfl
    | inf => exact absurd (.inr ⟨⟨_, rfl⟩, _, rfl⟩) hvalid
    | zero | fin =>
      obtain ⟨p, rfl⟩ := hC rfl rfl
      rfl
  | fin =>
    cases B with
    | nan => rfl
    | inf | zero | fin =>
      obtain ⟨p, rfl⟩ := hC rfl rfl
      rfl

/-- An infinite product plus a third operand. -/
theorem fma_inf (mode : Rounding)
    (hvalid : ¬ ((∃ n, F.datum a = .inf n) ∧ (∃ n, F.datum b = .zero n) ∨
      (∃ n, F.datum a = .zero n) ∧ (∃ n, F.datum b = .inf n)))
    (ha : (F.datum a).isNaN = false) (hb : (F.datum b).isNaN = false) (hc : (F.datum c).isNaN = false)
    (hinf : (∃ n, F.datum a = .inf n) ∨ (∃ n, F.datum b = .inf n)) :
    F.fma a b c mode = F.infPlus (F.sign a != F.sign b) (F.datum c) := by
  have hreadA := F.datum_reads a
  have hreadB := F.datum_reads b
  unfold fma
  dsimp only
  rw [hc]
  revert hvalid ha hb hinf hreadA hreadB
  generalize F.datum a = A
  generalize F.datum b = B
  intro hvalid ha hb hinf hreadA hreadB
  cases hreadA with
  | nan => cases ha
  | inf =>
    cases hreadB with
    | nan => cases hb
    | zero => exact absurd (.inl ⟨⟨_, rfl⟩, _, rfl⟩) hvalid
    | inf | fin => rfl
  | zero =>
    cases hreadB with
    | nan => cases hb
    | inf => exact absurd (.inr ⟨⟨_, rfl⟩, _, rfl⟩) hvalid
    | zero | fin => rcases hinf with ⟨_, h⟩ | ⟨_, h⟩ <;> cases h
  | fin =>
    cases hreadB with
    | nan => cases hb
    | inf => rfl
    | zero | fin => rcases hinf with ⟨_, h⟩ | ⟨_, h⟩ <;> cases h

theorem infPlus_eq (sp : Bool) (d : Datum) :
    F.infPlus sp d = if d = .inf (!sp) then F.invalid else exactly (F.withSign sp F.infBits) := by
  cases d with
  | inf n => cases n <;> cases sp <;> rfl
  | _ => rfl

/-- A finite product plus an infinity. -/
theorem fma_finite_inf {x y : ℚ} (mode : Rounding) (hx : (F.datum a).value = some x) (hy : (F.datum b).value = some y)
    (hc : F.datum c = .inf n) : F.fma a b c mode = exactly (F.withSign n F.infBits) := by
  rcases fma_finite (mode := mode) hx hy (c := c) (by rw [hc]; rfl) with ⟨-, h⟩ | ⟨m, e, -, -, h⟩ <;>
    rw [h, hc] <;> rfl

/-- A fused multiply-add of finite numbers that is zero. -/
theorem fma_cancel {x y z : ℚ} (hlc : c < 2 * F.signBit) (mode : Rounding) (hx : (F.datum a).value = some x)
    (hy : (F.datum b).value = some y) (hz : (F.datum c).value = some z) (h : x * y + z = 0) :
    F.fma a b c mode =
      if x * y = 0 ∧ F.sign c = (F.sign a != F.sign b) then exactly c else F.zeroSum mode := by
  have hcases := finite_cases hz
  have hc : (F.datum c).isNaN = false := by
    rcases hcases with ⟨hc, -⟩ | ⟨_, _, hc, -⟩ <;> rw [hc] <;> rfl
  rcases fma_finite (mode := mode) hx hy hc with ⟨hxy, hfma⟩ | ⟨m, e, hm, hxy, hfma⟩
  · rw [hxy, zero_add] at h
    have hC : F.datum c = .zero (F.sign c) := by
      rcases hcases with ⟨hC, -⟩ | ⟨m, e, -, hm, rfl, -⟩
      · exact hC
      · exact absurd h (fin_ne_zero _ hm e)
    rw [hfma, hC, zeroPlus]
    simp only [hxy, true_and]
    split
    · next hs => rw [← hs, withSign_zero hlc hC]
    · rfl
  · have hne : x * y ≠ 0 := hxy ▸ fin_ne_zero _ hm e
    rw [if_neg fun h => hne h.1, hfma]
    rcases hcases with ⟨-, rfl⟩ | ⟨m', e', hC, -, rfl, -⟩
    · exact absurd ((add_zero _).symm.trans h) hne
    · rw [hC]
      rw [hxy] at h
      exact sum_eq_whenZero h

/-! ## Conversions between the formats -/

section
variable {G : Format} {d : Nat} (F : Format) (mode : Rounding)

theorem ofFormat_nan (h : (G.datum d).isNaN = true) : F.ofFormat G d mode = (F.nanBits, nanFlags [G.datum d]) := by
  obtain ⟨p, hd⟩ := Datum.isNaN_iff.1 h
  unfold ofFormat
  rw [hd]
  rfl

theorem ofFormat_inf (h : G.datum d = .inf n) : F.ofFormat G d mode = exactly (F.withSign n F.infBits) := by
  unfold ofFormat
  rw [h]

theorem ofFormat_zero (h : G.datum d = .zero n) : F.ofFormat G d mode = exactly (F.withSign n 0) := by
  unfold ofFormat
  rw [h]

end

end Format

/-- Settles O56: each clause is that operation's case for the data its operands read as. -/
theorem arithmeticSpecialCases : Obligations.ArithmeticSpecialCases := by
  unfold Obligations.ArithmeticSpecialCases
  intro F hF a b c mode ha hb hc A B C nan infinity signed sgn sp invalid zeroSum isInf isZero finite
  have hnan : F.nanBits = nan := Format.nanBits_eq hF
  have hinf : F.infBits = infinity := by rcases hF with rfl | rfl <;> decide
  have hinvalid : F.invalid = invalid := congrArg (·, flagNV) hnan
  have hsa : F.sign a = sgn a := Format.sign_eq ha
  have hsb : F.sign b = sgn b := Format.sign_eq hb
  have hsc : F.sign c = sgn c := Format.sign_eq hc
  have hsp : (F.sign a != F.sign b) = sp := by rw [hsa, hsb]
  have hE := Format.expBits_pos hF
  refine ⟨?sub, ?nan, ?infInf, ?infFinite, ?zeroZero, ?cancel, ?zeroFinite,
    ⟨?sqrtNan, ?sqrtZeroInf, ?sqrtNeg⟩, ⟨?fmaInvalid, ?fmaValid, ?fmaFiniteInf, ?fmaCancel⟩, ?ofInt, ?ofFormat⟩
  case sub =>
    rw [← Format.neg_eq hb]
    rfl
  case nan =>
    intro h r
    obtain ⟨hadd, hmul, hdiv⟩ := Format.binary_nan mode h
    have hsub := Format.sub_nan mode h
    rw [hnan] at hadd hsub hmul hdiv
    exact ⟨hadd, hsub, hmul, hdiv⟩
  case infInf =>
    rintro ⟨_, hA⟩ ⟨_, hB⟩
    have h := Format.inf_inf ha mode hA hB
    rwa [hsp, hinvalid, hinf] at h
  case infFinite =>
    rintro ⟨_, hA⟩ hB
    obtain ⟨hadd, hadd', hdiv, hdiv'⟩ := Format.inf_finite ha mode hA hB
    rw [hsp, hinf] at hdiv
    rw [hsp] at hdiv'
    refine ⟨hadd, hadd', ?_, ?_, ?_, hdiv, hdiv'⟩
    · rcases Format.finite_or_zero hB with hB | ⟨m, e, hB⟩
      · obtain ⟨hmul, hmul'⟩ := Format.inf_mul_zero mode hA hB
        exact hmul.trans hmul'.symm
      · obtain ⟨hmul, hmul'⟩ := Format.inf_mul_fin mode hA hB
        exact hmul.trans hmul'.symm
    · rintro ⟨_, hB⟩
      exact (Format.inf_mul_zero mode hA hB).1.trans hinvalid
    · intro hB₀
      obtain ⟨m, e, hB⟩ := (Format.finite_or_zero hB).resolve_left fun h => hB₀ ⟨_, h⟩
      have hmul := (Format.inf_mul_fin mode hA hB).1
      rwa [hsp, hinf] at hmul
  case zeroZero =>
    rintro ⟨_, hA⟩ ⟨_, hB⟩
    obtain ⟨hadd, hdiv⟩ := Format.zero_zero ha mode hA hB
    rw [hsp] at hadd
    exact ⟨hadd, hdiv.trans hinvalid⟩
  case cancel =>
    exact fun x y hx hy hne h => Format.add_cancel mode hx hy hne h
  case zeroFinite =>
    rintro ⟨_, hA⟩ hB
    obtain ⟨hmul, hmul'⟩ := Format.zero_mul_finite mode hA hB
    rw [hsp] at hmul hmul'
    refine ⟨hmul, hmul', fun hB₀ => ?_⟩
    obtain ⟨m, e, hB⟩ := (Format.finite_or_zero hB).resolve_left fun h => hB₀ ⟨_, h⟩
    have hdiv := Format.zero_div_fin mode hA hB
    rwa [hsp, hinf] at hdiv
  case sqrtNan =>
    rw [← hnan]
    exact Format.sqrt_nan mode
  case sqrtZeroInf =>
    rw [← hinf]
    exact Format.sqrt_zero_or_inf hE ha mode
  case sqrtNeg =>
    rw [← hinvalid, ← hsa]
    exact Format.sqrt_neg mode
  case fmaInvalid =>
    rw [← hinvalid]
    exact Format.fma_invalid c mode
  case fmaValid =>
    refine fun hvalid => ⟨fun h => ?_, fun hA hB hC h => ?_⟩
    · rw [← hnan]
      exact Format.fma_nan mode hvalid h
    · rw [← hinvalid, ← hinf, ← hsp, Format.fma_inf mode hvalid hA hB hC h, Format.infPlus_eq]
      rfl
  case fmaFiniteInf =>
    intro hA hB ⟨_, hC⟩
    obtain ⟨x, hx⟩ := Option.isSome_iff_exists.1 hA
    obtain ⟨y, hy⟩ := Option.isSome_iff_exists.1 hB
    rw [Format.fma_finite_inf mode hx hy hC, Format.withSign_infBits hc hC]
    rfl
  case fmaCancel =>
    intro x y z hx hy hz h
    rw [Format.fma_cancel hc mode hx hy hz h, hsp, hsc]
    rfl
  case ofInt =>
    rfl
  case ofFormat =>
    intro G hG d hd
    refine ⟨fun h => ?_, fun n => ⟨fun h => ?_, fun h => ?_⟩⟩
    · rw [← hnan]
      exact Format.ofFormat_nan F mode h
    · rw [← hinf]
      exact Format.ofFormat_inf F mode h
    · exact Format.ofFormat_zero F mode h

end Sys2Proof.Machine
end

section
/-! The compressed computations (R295 to R302, R320, R321, R324, R325, R328 to R332, R335): each is the `putX` of the
instruction it expands to, so what is new is its immediates (R99). -/

namespace Sys2Proof.Machine

open Sys2Proof

/-! ## Compressed immediates (R99) -/

/-- A 6-bit immediate acts as a 12-bit one of the same number: that of the expansion. -/
theorem imm6_eq_imm12 (imm : BitVec 6) : imm6 imm = imm12 (imm.signExtend 12) := by
  apply BitVec.eq_of_toInt_eq
  rw [imm12_toInt, imm6, BitVec.toInt_signExtend_of_le (by decide), BitVec.toInt_signExtend_of_le (by decide)]

theorem imm6_toInt (imm : BitVec 6) : (imm6 imm).toInt = imm.toInt :=
  BitVec.toInt_signExtend_of_le (by decide)

/-- A signed immediate whose low `k` bits are zeros is its field, times 2^k. -/
theorem scaledSigned_toInt {n : Nat} (imm : BitVec n) (k : Nat) (h : n + k ≤ 64) :
    ((imm ++ 0#k).signExtend 64).toInt = 2 ^ k * imm.toInt := by
  rw [BitVec.toInt_signExtend_of_le h, append_zeros_toInt, mul_comm]

theorem cImm16sp_toInt (imm : BitVec 6) : (cImm16sp imm).toInt = 16 * imm.toInt :=
  scaledSigned_toInt imm 4 (by decide)

theorem cUpperImm_toInt (imm : BitVec 6) : (cUpperImm imm).toInt = 4096 * imm.toInt :=
  scaledSigned_toInt imm 12 (by decide)

theorem cImm4spn_toInt (imm : BitVec 8) : (cImm4spn imm).toInt = 4 * imm.toNat :=
  scaled_toInt imm 2 (by decide)

/-! ## Results -/

/-- `c.andi` (R302): the XLEN-bit pattern of the immediate may stand for its container. -/
theorem State.wrap_and_imm6 (s : State) (v : Word) (imm : BitVec 6) :
    s.wrap (v &&& imm6 imm).toNat = s.wrap (v.toNat &&& s.wrap imm.toInt : Nat) := by
  rw [BitVec.toNat_and, imm6_eq_imm12, s.wrap_bitwise_imm12 Nat.and_mod_two_pow,
    BitVec.toInt_signExtend_of_le (by decide)]

/-- The sign-extended low 32 bits of a sum, the second term read as signed: a register and an immediate (R299). -/
theorem State.wrap_sextW_add_toInt (s : State) (a b : Word) :
    s.wrap (sextW (a + b)).toNat = s.wrap (low32 (a.toNat + b.toInt)) := by
  apply s.wrap_sextW_low32
  rw [BitVec.toNat_add, BitVec.toInt_eq_toNat_cond]
  split <;> omega

theorem State.wrap_sextW_add (s : State) (a b : Word) :
    s.wrap (sextW (a + b)).toNat = s.wrap (low32 (a.toNat + b.toNat)) := by
  apply s.wrap_sextW_low32
  rw [BitVec.toNat_add]
  omega

theorem State.wrap_sextW_sub (s : State) (a b : Word) :
    s.wrap (sextW (a - b)).toNat = s.wrap (low32 (a.toNat - b.toNat)) := by
  apply s.wrap_sextW_low32
  rw [BitVec.toNat_sub]
  omega

/-- Settles O58: each puts the word whose number is that of its expansion, with the numbers of its immediates. -/
theorem compressedArithmeticResults : Obligations.CompressedArithmeticResults := by
  unfold Obligations.CompressedArithmeticResults
  intro s rd rs2 rd' rs2' imm wide d r
  refine ⟨State.computes_of_putX rfl (s.wrap_add _ _), State.computes_of_putX rfl ?addi,
    State.computes_of_putX rfl ?addi16sp, State.computes_of_putX rfl ?addi4spn,
    State.computes_of_putX rfl ?addiw, State.computes_of_putX rfl (s.wrap_sextW_add _ _),
    State.computes_of_putX rfl ?and, State.computes_of_putX rfl (s.wrap_and_imm6 _ imm),
    State.computes_of_putX rfl ?li, State.computes_of_putX rfl ?lui, State.computes_of_putX rfl rfl,
    State.computes_of_putX rfl ?or, State.computes_of_putX rfl (s.wrap_shiftLeft rd imm.toNat),
    State.computes_of_putX rfl (s.wrap_shiftRightArith d imm.toNat),
    State.computes_of_putX rfl (s.wrap_shiftRight d imm.toNat), State.computes_of_putX rfl (s.wrap_sub _ _),
    State.computes_of_putX rfl (s.wrap_sextW_sub _ _), State.computes_of_putX rfl ?xor⟩
  case addi => rw [s.wrap_add_toInt, imm6_toInt]; rfl
  case addi16sp => rw [s.wrap_add_toInt, cImm16sp_toInt]; rfl
  case addi4spn => rw [s.wrap_add_toInt, cImm4spn_toInt]; rfl
  case addiw => rw [s.wrap_sextW_add_toInt, imm6_toInt]; rfl
  case and => rw [BitVec.toNat_and]; rfl
  case li => rw [← s.wrap_toInt, imm6_toInt]
  case lui => rw [← s.wrap_toInt, cUpperImm_toInt]
  case or => rw [BitVec.toNat_or]; rfl
  case xor => rw [BitVec.toNat_xor]; rfl

end Sys2Proof.Machine
end

section
/-! The compressed branches and jumps (R303, R304, R314 to R317): with the C extension every even target is aligned
(R81), so each goes to its target unchecked. -/

namespace Sys2Proof.Machine

open Sys2Proof

/-- The instruction after one of 2 bytes (R23, R411). -/
theorem State.pcPlus_two (s : State) : (s.pcPlus 2).toNat = s.wrap (s.pc.toNat + 2) := s.pcPlus_toNat 2

/-- An instruction that means a `cBranch` on the test of a condition branches on that condition. -/
theorem State.goesTo_of_cBranch {i : Instr} {s : State} {b : Bool} {taken : Prop} [Decidable taken]
    {imm : BitVec 8} (hi : exec i s = s.cBranch b (cBranchOffset imm)) (hb : b = decide taken) :
    GoesTo i s (if taken then s.pc.toNat + 2 * imm.toInt else s.pc.toNat + 2) := by
  by_cases h : taken
  · rw [hb, decide_eq_true h] at hi
    rw [if_pos h]
    exact ⟨_, hi, .of_retireAt (s.pcPlus_doubled imm (by decide))⟩
  · rw [hb, decide_eq_false h] at hi
    rw [if_neg h]
    exact ⟨_, hi, .of_retireAt s.pcPlus_two⟩

/-- An instruction that means a `cJump` goes to its target and links to the next instruction (R315, R316). -/
theorem State.links_of_cJump {i : Instr} {s : State} {rd : Reg} {target : Word} {m : Int}
    (hi : exec i s = s.cJump rd target) (ht : target.toNat = s.wrap m) :
    ∃ t, exec i s = .next t ∧ WroteX s t rd (s.pc.toNat + 2) m :=
  ⟨_, hi, .of_setX_retireAt (by rw [s.pcPlus_two, s.wrap_wrap]) ht⟩

/-- A `cJump` that links to x0 writes no register (R314, R317). -/
theorem State.goesTo_of_cJump {i : Instr} {s : State} {target : Word} {m : Int}
    (hi : exec i s = s.cJump 0 target) (ht : target.toNat = s.wrap m) : GoesTo i s m :=
  ⟨_, hi, .of_retireAt ht⟩

/-- The target of `c.jr` and `c.jalr` is an XLEN-bit number (R316, R317). -/
theorem State.clearBit0_getX (s : State) (r : Reg) :
    (clearBit0 (s.getX r)).toNat = s.wrap (s.ux r / 2 * 2 : Nat) := by
  have hlt : s.ux r / 2 * 2 < s.modulus := lt_of_le_of_lt (Nat.div_mul_le_self _ 2) (s.ux_lt r)
  rw [s.wrap_natCast, Nat.mod_eq_of_lt hlt]
  exact clearOne_toNat _

/-- Settles O59: each branch compares its register with x0, each jump goes to the number of its target. -/
theorem compressedControlResults : Obligations.CompressedControlResults := by
  unfold Obligations.CompressedControlResults
  intro s rs1 rs1' off far r near jump indirect
  have hjump : (s.pcPlus (cJumpOffset far)).toNat = s.wrap jump := s.pcPlus_doubled far (by decide)
  have hindirect : (clearBit0 (s.getX rs1)).toNat = s.wrap indirect := s.clearBit0_getX rs1
  have hbnez : GoesTo (.cBnez rs1' off) s (if s.ux r ≠ 0 then near else s.pc.toNat + 2) :=
    State.goesTo_of_cBranch rfl (s.getX_bne r 0)
  rw [ite_not] at hbnez
  exact ⟨State.goesTo_of_cBranch rfl (s.getX_beq r 0), hbnez,
    State.goesTo_of_cJump rfl hjump, State.links_of_cJump rfl hjump,
    State.goesTo_of_cJump rfl hindirect, State.links_of_cJump rfl hindirect⟩

end Sys2Proof.Machine
end

section
/-! The compressed integer loads and stores (R318, R319, R322, R323, R326, R327, R333, R334): the shapes of the 32-bit
ones, at a base plus a scaled offset (R99). -/

namespace Sys2Proof.Machine

open Sys2Proof

/-- Settles O60: each load and store by its shape, at its scaled address. -/
theorem compressedLoadsAndStores : Obligations.CompressedLoadsAndStores := by
  unfold Obligations.CompressedLoadsAndStores
  intro s rd rs2 rd' rs1' rs2' o5 o6 p a4 a8 s4 s8
  have ha4 : (s.addrPlus rs1'.reg (cOffset4 o5)).toNat = a4 := s.scaledAddress_toNat _ o5 2 (by decide)
  have ha8 : (s.addrPlus rs1'.reg (cOffset8 o5)).toNat = a8 := s.scaledAddress_toNat _ o5 3 (by decide)
  have hs4 : (s.addrPlus sp (cSpOffset4 o6)).toNat = s4 := s.scaledAddress_toNat _ o6 2 (by decide)
  have hs8 : (s.addrPlus sp (cSpOffset8 o6)).toNat = s8 := s.scaledAddress_toNat _ o6 3 (by decide)
  have word {v : Word} {a : Nat} (hv : v.toNat = a) (h : Reaches s .load a 4 p) (rd : Reg) :=
    State.loadX_computes (State.dataBytes_aligned hv h) (readAll_bytesFrom s p 4) (s.wrap_sextW _) rd 2
  have doubleword {v : Word} {a : Nat} (hv : v.toNat = a) (h : Reaches s .load a 8 p) (rd : Reg) :=
    State.loadX_computes (State.dataBytes_aligned hv h) (readAll_bytesFrom s p 8) (s.wrap_zext _) rd 2
  exact ⟨fun h => word ha4 h rd'.reg, fun h => doubleword ha8 h rd'.reg,
    fun h => word hs4 h rd, fun h => doubleword hs8 h rd,
    fun h => State.storeX_done ha4 h (s.getX rs2'.reg) (by decide),
    fun h => State.storeX_done ha8 h (s.getX rs2'.reg) (by decide),
    fun h => State.storeX_done hs4 h (s.getX rs2) (by decide),
    fun h => State.storeX_done hs8 h (s.getX rs2) (by decide)⟩

end Sys2Proof.Machine
end

section
/-! Steps and traps (spec/60_exceptions.md): the instruction a step runs (R392), what entering a trap leaves (R400), and
which interrupt is taken (R397). -/

namespace Sys2Proof.Machine

open Sys2Proof

/-! ## The instruction at the pc -/

theorem State.runWord_instr {s : State} {w : BitVec 32} {i : Instr} (h : decode s.cfg w = .instr i) :
    s.runWord w = exec i s := by
  unfold State.runWord
  rw [h]

/-- With no interrupt to take, a step runs the instruction that its fetch answers (R392 steps 4 to 6). -/
theorem step_eq_exec {s t : State} {w : BitVec 32} {i : Instr} (hi : s.beginStep.pendingInterrupt = none)
    (hf : s.beginStep.fetch = .ok (t, w)) (hd : decode t.cfg w = .instr i) : step s = exec i t :=
  (step_fetched hi hf).trans (State.runWord_instr hd)

/-- Settles O4: a fetch whose parcels lie in memory gives the word there, and a step runs what its fetch gives. -/
theorem stepRunsDecodedInstruction : Obligations.StepRunsDecodedInstruction := by
  unfold Obligations.StepRunsDecodedInstruction
  refine ⟨fun s p q i hi hat hd => ?_, fun s t w i hi hf hd => step_eq_exec hi hf hd⟩
  exact step_eq_exec hi (s.beginStep.fetch_at p q hat) (by rw [State.beginStep_cfg]; exact hd)

/-! ## Trap entry -/

theorem State.delegated_iff (s : State) (interrupt : Bool) (code : Nat) :
    s.delegated interrupt code = true ↔ s.cfg.hasS = true ∧ s.priv ≠ .m ∧
      (if interrupt then s.mideleg else s.medeleg).getLsbD code = true := by
  cases interrupt <;> simp [State.delegated, and_assoc]

/-- A delegated trap (R400). -/
theorem State.trapEntry_trappedS {s : State} {interrupt : Bool} {code : Nat} {tval : Word} (h : AtInstruction s)
    (hc : code < 16) (ht : tval.toNat < s.modulus) (hd : s.delegated interrupt code = true) :
    TrappedS s (s.trapEntry interrupt code s.pc tval) interrupt code tval.toNat := by
  have hn : s.cfg.xlen.norm tval = tval := Xlen.norm_of_lt _ _ ht
  unfold State.trapEntry
  dsimp only
  rw [if_pos hd, hn]
  exact ⟨epcMask_of_aligned s h, causeWord_toNat s interrupt code hc, rfl, rfl, rfl, rfl, rfl, rfl,
    vectorTarget_toNat s s.stvec interrupt code, fun _ => rfl, fun _ => rfl, rfl⟩

/-- Every other trap (R400). -/
theorem State.trapEntry_trappedM {s : State} {interrupt : Bool} {code : Nat} {tval : Word} (h : AtInstruction s)
    (hc : code < 16) (ht : tval.toNat < s.modulus) (hd : ¬ s.delegated interrupt code = true) :
    TrappedM s (s.trapEntry interrupt code s.pc tval) interrupt code tval.toNat := by
  have hn : s.cfg.xlen.norm tval = tval := Xlen.norm_of_lt _ _ ht
  unfold State.trapEntry
  dsimp only
  rw [if_neg hd, hn]
  exact ⟨epcMask_of_aligned s h, causeWord_toNat s interrupt code hc, rfl, rfl, rfl, rfl, rfl, rfl,
    vectorTarget_toNat s s.mtvec interrupt code, fun _ => rfl, fun _ => rfl, rfl⟩

/-- Settles O38: the mode by R399, and what entering the trap leaves in each. -/
theorem trapEntryInMode : Obligations.TrapEntryInMode := by
  unfold Obligations.TrapEntryInMode
  intro s interrupt code tval hs hc ht t delegated
  have hdel : s.delegated interrupt code = true ↔ delegated := s.delegated_iff interrupt code
  exact ⟨fun hd => State.trapEntry_trappedS hs hc ht (hdel.2 hd),
    fun hd => State.trapEntry_trappedM hs hc ht (hd ∘ hdel.1)⟩

/-! ## Taking an interrupt -/

/-- A pending interrupt is the whole step (R392 step 3). -/
theorem step_interrupted {s : State} {n : Nat} (h : s.beginStep.pendingInterrupt = some n) :
    step s = .next (s.beginStep.trapEntry true n s.beginStep.pc 0) := by
  unfold step State.runNext
  rw [h]
  rfl

/-- Settles O7: the step is the trap's entry, in the mode that the interrupt's delegation gives. -/
theorem interruptsAreTakenBeforeInstructions : Obligations.InterruptsAreTakenBeforeInstructions := by
  unfold Obligations.InterruptsAreTakenBeforeInstructions
  intro s n hn hs
  have hc : n < 16 := State.pendingInterrupt_lt hn
  have hdel : s.beginStep.delegated true n = true ↔
      s.cfg.hasS = true ∧ s.priv ≠ .m ∧ s.mideleg.getLsbD n = true := by
    simp [State.delegated_iff]
  exact ⟨_, step_interrupted hn,
    fun hd => State.trapEntry_trappedS hs hc s.beginStep.modulus_pos (hdel.2 hd),
    fun hd => State.trapEntry_trappedM hs hc s.beginStep.modulus_pos (hd ∘ hdel.1)⟩

/-! ## Which interrupt is taken (R397) -/

theorem firstSet_eq_find? (v : Word) (l : List Nat) : firstSet v l = l.find? v.getLsbD := by
  induction l with
  | nil => rfl
  | cons k rest ih =>
    unfold firstSet
    rw [List.find?_cons, ih]
    cases v.getLsbD k <;> rfl

/-- The first set bit is the first of the list with the property that the set bits have. -/
theorem firstSet_eq_some_iff {v : Word} {p : Nat → Prop} (hp : ∀ k, v.getLsbD k = true ↔ p k) (l : List Nat)
    (n : Nat) : firstSet v l = some n ↔
      ∃ before after, l = before ++ n :: after ∧ p n ∧ ∀ k ∈ before, ¬ p k := by
  rw [firstSet_eq_find?, List.find?_eq_some_iff_append]
  simp only [← hp, Bool.not_eq_true, Bool.not_eq_true']
  tauto

theorem firstSet_eq_none_iff {v : Word} {p : Nat → Prop} (hp : ∀ k, v.getLsbD k = true ↔ p k) (l : List Nat) :
    firstSet v l = none ↔ ∀ k ∈ l, ¬ p k := by
  rw [firstSet_eq_find?, List.find?_eq_none]
  simp only [hp]

theorem State.mIrqsOn_iff (s : State) : s.mIrqsOn = true ↔ s.priv ≠ .m ∨ s.mstatus.mie = true := by
  simp [State.mIrqsOn]

theorem State.sIrqsOn_iff (s : State) :
    s.sIrqsOn = true ↔ s.priv = .u ∨ (s.priv = .s ∧ s.mstatus.sie = true) := by
  simp [State.sIrqsOn]

/-- The pending and enabled interrupts (R397 step 1). -/
def State.irqPending (s : State) : Word := s.mipWord &&& s.mie

/-- An interrupt that M-mode takes comes before every one that S-mode takes (R397 step 4). -/
theorem State.pendingInterrupt_eq_some_iff (s : State) (n : Nat) :
    s.pendingInterrupt = some n ↔
      (s.mIrqsOn = true ∧ firstSet (s.irqPending &&& ~~~s.irqDelegation) [11, 3, 7, 9, 1, 5] = some n) ∨
      ((¬ s.mIrqsOn = true ∨ firstSet (s.irqPending &&& ~~~s.irqDelegation) [11, 3, 7, 9, 1, 5] = none) ∧
        s.sIrqsOn = true ∧ firstSet (s.irqPending &&& s.irqDelegation) [9, 1, 5] = some n) := by
  unfold State.pendingInterrupt State.irqPending
  dsimp only
  generalize firstSet (s.mipWord &&& s.mie &&& ~~~s.irqDelegation) [11, 3, 7, 9, 1, 5] = forM
  cases s.mIrqsOn <;> cases forM <;> simp

/-- The bits of the pending and enabled interrupts, where without S-mode no supervisor interrupt is enabled (R45). -/
theorem State.getLsbD_irqPending {s : State} (h : s.cfg.hasS = false → s.mie &&& 0x222 = 0) (k : Nat) :
    s.irqPending.getLsbD k = (s.mie.getLsbD k &&
      (s.ssip && decide (k = 1) || s.irq.msi && decide (k = 3) || s.stip && decide (k = 5) ||
        s.irq.mti && decide (k = 7) || (s.seipSw || s.irq.sei) && decide (k = 9) ||
        s.irq.mei && decide (k = 11))) := by
  have hbit : s.irqPending.getLsbD k = (s.mie.getLsbD k && s.mipWord.getLsbD k) := by
    unfold State.irqPending
    rw [BitVec.getLsbD_and, Bool.and_comm]
  rw [hbit, State.mipWord, s.getLsbD_mipWith]
  cases hS : s.cfg.hasS with
  | true => simp only [Bool.true_and]
  | false =>
    have hoff : (s.mie.getLsbD k && decide (k ∈ [1, 5, 9])) = false := by
      rw [← getLsbD_supervisorIrqs, ← BitVec.getLsbD_and, show s.mie &&& 0x222#64 = 0 from h hS]
      exact BitVec.getLsbD_zero
    cases hk : s.mie.getLsbD k with
    | false => rw [Bool.false_and, Bool.false_and]
    | true =>
      have hne : k ≠ 1 ∧ k ≠ 5 ∧ k ≠ 9 := by simpa [hk] using hoff
      simp [hne]

theorem State.getLsbD_irqDelegation (s : State) (k : Nat) :
    s.irqDelegation.getLsbD k = (s.cfg.hasS && s.mideleg.getLsbD k) := by
  unfold State.irqDelegation
  cases s.cfg.hasS <;> simp

theorem getLsbD_and_not (v mask : Word) (k : Nat) :
    (v &&& ~~~mask).getLsbD k = true ↔ v.getLsbD k = true ∧ mask.getLsbD k = false := by
  have hlt : v.getLsbD k = true → k < 64 := BitVec.lt_of_getLsbD
  rw [BitVec.getLsbD_and, BitVec.getLsbD_not, Bool.and_eq_true, Bool.and_eq_true, decide_eq_true_eq,
    Bool.not_eq_true']
  tauto

/-- Settles O6: the bits of the words that the model searches are the interrupts of each destination. -/
theorem interruptSelection : Obligations.InterruptSelection := by
  unfold Obligations.InterruptSelection
  intro s n hmie pend toS onM onS first
  have hpend (k : Nat) : s.irqPending.getLsbD k = pend k := by
    refine (State.getLsbD_irqPending hmie k).trans (congrArg (s.mie.getLsbD k && ·) ?_)
    split <;> simp_all
  have hdel (k : Nat) : s.irqDelegation.getLsbD k = toS k := s.getLsbD_irqDelegation k
  have hM (k : Nat) : (s.irqPending &&& ~~~s.irqDelegation).getLsbD k = true ↔ pend k = true ∧ toS k = false := by
    rw [getLsbD_and_not, hpend, hdel]
  have hS (k : Nat) : (s.irqPending &&& s.irqDelegation).getLsbD k = true ↔ pend k = true ∧ toS k = true := by
    rw [BitVec.getLsbD_and, hpend, hdel, Bool.and_eq_true]
  rw [s.pendingInterrupt_eq_some_iff, s.mIrqsOn_iff, s.sIrqsOn_iff, firstSet_eq_some_iff hM,
    firstSet_eq_none_iff hM, firstSet_eq_some_iff hS]

end Sys2Proof.Machine
end

section
/-! The machine right after reset: the values the spec fixes (R408, R409), and that it meets `State.Inv` in every
valid configuration. -/

namespace Sys2Proof

/-! ## What a valid configuration says of reset (R7 to R10) -/

/-- The parameters that reset copies into the state: the vector is an aligned XLEN-bit address, and `FS_RESET`
is 0 without F. -/
theorem Config.resetParameters_of_valid {c : Config} (h : c.valid = true) :
    c.resetVector.toNat % c.ialignBytes = 0 ∧ c.resetVector.toNat < 2 ^ c.xlen.bits ∧
      (c.extF = false → c.fsReset = 0) := by
  simp only [Config.valid, Bool.and_eq_true, Bool.or_eq_true, decide_eq_true_eq, beq_iff_eq] at h
  obtain ⟨⟨⟨⟨⟨⟨-, haligned⟩, hlt⟩, -⟩, -⟩, hfs⟩, -⟩ := h
  exact ⟨haligned, hlt, fun hF => hfs.resolve_left (by simp [hF])⟩

theorem Config.default_valid : Config.default.valid = true := by decide

end Sys2Proof

namespace Sys2Proof.Machine

open Sys2Proof

/-! ## The parts of the state after reset -/

theorem State.fits_zero (s : State) : s.fits 0 := s.modulus_pos

/-- The registers are zero (assumption log 3). -/
theorem State.resetWith_x (c : Config) (r : Reg) : (State.resetWith c).x[r.toNat] = 0 :=
  Vector.getElem_replicate _

/-- The floating-point registers are zero (assumption log 4). -/
theorem State.resetWith_f (c : Config) (r : Reg) : (State.resetWith c).f[r.toNat] = 0 :=
  Vector.getElem_replicate _

/-- MPP is a mode the hart has (R41, assumption log 5). -/
theorem Mstatus.reset_mpp_existsIn (c : Config) : (Mstatus.reset c).mpp.existsIn c = true := by
  unfold Mstatus.reset
  dsimp only
  split
  · next hU => exact hU
  · rfl

/-- Bare translation is legal in every configuration (R51). -/
theorem satpLegal_zero (c : Config) : satpLegal c 0 = true := by
  unfold satpLegal
  cases c.xlen <;> rfl

/-- Each clause: a parameter that a valid configuration constrains, or a zero, which lies in every WARL set. -/
theorem State.resetWith_inv {c : Config} (h : c.valid = true) : (State.resetWith c).Inv := by
  obtain ⟨haligned, hlt, hfs⟩ := Config.resetParameters_of_valid h
  have hzero : (State.resetWith c).fits 0 := State.fits_zero _
  exact {
    config := h
    memory := Mem.wf_reset c
    betweenSteps := rfl
    registers := fun r => by rw [State.resetWith_x]; exact hzero
    single := fun _ r => by rw [State.resetWith_f]; decide
    pcFits := hlt
    pcAligned := haligned
    mode := rfl
    mpp := Mstatus.reset_mpp_existsIn c
    noS := fun _ => ⟨rfl, rfl, rfl, rfl, rfl, rfl, rfl⟩
    noU := fun _ => ⟨rfl, rfl⟩
    noF := hfs
    mtvec := ⟨hzero, BitVec.getLsbD_zero⟩
    stvec := ⟨hzero, BitVec.getLsbD_zero⟩
    mepc := ⟨hzero, Nat.zero_mod _⟩
    sepc := ⟨hzero, Nat.zero_mod _⟩
    delegation := ⟨BitVec.zero_and, BitVec.zero_and⟩
    enables := BitVec.zero_and
    satpMode := ⟨satpLegal_zero c, hzero⟩
    words := ⟨hzero, hzero, hzero, hzero, hzero, hzero⟩
    reservation := by rintro _ ⟨⟩ }

/-- Settles O9: reset meets the invariant in a valid configuration, and the default one is valid. -/
theorem resetMeetsInvariant : Obligations.ResetMeetsInvariant := by
  unfold Obligations.ResetMeetsInvariant
  exact ⟨fun _ => State.resetWith_inv, State.resetWith_inv Config.default_valid⟩

/-! ## The values the spec fixes (R409) -/

/-- The CSRs that are constants of the configuration (R36, R38, R39). -/
theorem State.csrRead_constants (s : State) :
    s.csrRead .mhartid = s.cfg.hartId ∧ s.csrRead .mvendorid = s.cfg.mvendorid ∧
      s.csrRead .marchid = s.cfg.marchid ∧ s.csrRead .mimpid = s.cfg.mimpid ∧ s.csrRead .hardwired = 0 ∧
      (∀ n, s.csrRead (.hpmcounter n) = 0) ∧ s.csrRead .misa = misaWord s.cfg :=
  ⟨rfl, rfl, rfl, rfl, rfl, fun _ => rfl, rfl⟩

/-- Settles O8: x0 and the constant CSRs read in every state as stated; the other values are fields that reset sets. -/
theorem resetFixedValues : Obligations.ResetFixedValues := by
  unfold Obligations.ResetFixedValues
  intro c s
  have hx0 : ∀ v, (s.setX 0 v).getX 0 = 0 := fun v => (s.setX 0 v).getX_zero
  obtain ⟨hhartid, hvendorid, harchid, himpid, hhardwired, hcounters, hmisa⟩ := s.csrRead_constants
  exact ⟨rfl, rfl, hx0, rfl, rfl, rfl, rfl, rfl, rfl, rfl, rfl, rfl, hhartid, hvendorid, harchid, himpid,
    hhardwired, hcounters, hmisa, rfl⟩

end Sys2Proof.Machine
end
